-- ==== Sys2Proof/Word.lean ====
section
/-!
DEFINITION. The word types of the block (R11, R80) and their plainest reading.
-/

namespace Sys2Proof

/-- `uint8`: a register address or one byte of the wire (R11). -/
abbrev Byte := BitVec 8

/-- The 16-bit pattern of a raw sample (`SAMPLE_BITS`, R9, R12). -/
abbrev Half := BitVec 16

/-- A command word or a host register word (`bits32`, R11, R80, R32). -/
abbrev Word := BitVec 32

end Sys2Proof
end

