-- ==== Sys2Proof/Machine/Bits.lean ====
section
/-!
DEFINITION. The bit-field helper: concatenation as R11 writes it, field by field at its bit position.
-/

namespace Sys2Proof.Machine

/-- A field standing at bit `lo` of a 32-bit word, every other bit zero (R11). -/
def place {n : Nat} (lo : Nat) (v : BitVec n) : Word := v.setWidth 32 <<< lo

end Sys2Proof.Machine
end

