-- ==== Sys2Proof/Syntax.lean ====
section
/-!
DEFINITION. The commands, one constructor for each row of spec/opcode_table.json (R85), with their operands as the
encoding rules read them (R82, R83).
-/

namespace Sys2Proof

/-- A lane of a 6-byte block, and the result register of its axis (R17, R23). -/
inductive Lane where
  | x
  | y
  | z
deriving DecidableEq, Repr, Inhabited

/-- The index of a lane: X for k = 0, Y for k = 1, Z for k = 2 (R23). -/
def Lane.idx : Lane → Fin 3
  | .x => 0
  | .y => 1
  | .z => 2

/-- The lanes in the order of their indices. -/
def Lane.all : List Lane := [.x, .y, .z]

/-- `MASK`: three independent enables (R83). -/
structure Mask where
  x : Bool
  y : Bool
  z : Bool
deriving DecidableEq, Repr, Inhabited

/-- `MASK[k]` (R83). -/
def Mask.on (m : Mask) : Lane → Bool
  | .x => m.x
  | .y => m.y
  | .z => m.z

/-- One command (R85). `DST` is `none` for the value 3, "no destination" (R82, R88). -/
inductive Instr where
  /-- OP 0x0, reserved (R86). -/
  | reserved0
  /-- OP 0x1, RD (R105). -/
  | rd (len : BitVec 3) (reg : Byte)
  /-- OP 0x2, WR (R106). -/
  | wr (len : BitVec 3) (reg wdata : Byte)
  /-- OP 0x3, IDENT (R107). -/
  | ident
  /-- OP 0x4, WAKE (R108). -/
  | wake
  /-- OP 0x5, SETACC2G (R109). -/
  | setacc2g
  /-- OP 0x6, SETGYR250 (R110). -/
  | setgyr250
  /-- OP 0x7, reserved (R86). -/
  | reserved7
  /-- OP 0x8, ASM (R143). -/
  | asm (mask : Mask)
  /-- OP 0x9, CVTA (R144). -/
  | cvta (mask : Mask)
  /-- OP 0xA, CVTG (R145). -/
  | cvtg (mask : Mask)
  /-- OP 0xB, CVTT (R146): MASK[0] alone. -/
  | cvtt (mask0 : Bool)
  /-- OP 0xC, ASMI (R147): hi = IMM16[15:8], lo = IMM16[7:0]. -/
  | asmi (dst : Option Lane) (hi lo : Byte)
  /-- OP 0xD, CVTAI (R148). -/
  | cvtai (dst : Option Lane) (imm : Half)
  /-- OP 0xE, CVTGI (R149). -/
  | cvtgi (dst : Option Lane) (imm : Half)
  /-- OP 0xF, CVTTI (R150). -/
  | cvtti (dst : Option Lane) (imm : Half)
deriving DecidableEq, Repr, Inhabited

end Sys2Proof
end

