-- ==== Sys2Proof/Decode.lean ====
section
/-!
DEFINITION. The decoder, total on all 2^32 words (R89), the encoder written from the same formats (R82), and the opcode
map as data (R85). SBZ bits are ignored (R84), so no word is refused (log 11).
-/

namespace Sys2Proof

open Sys2Proof.Machine (place)

/-- `OP = w[31:28]` (R81). -/
def opField (w : Word) : BitVec 4 := w.extractLsb' 28 4

/-- `LEN = w[27:25]` (R83). -/
def lenField (w : Word) : BitVec 3 := w.extractLsb' 25 3

/-- `REG = w[23:16]` (R83). -/
def regField (w : Word) : Byte := w.extractLsb' 16 8

/-- `WDATA = w[7:0]` (R83). -/
def wdataField (w : Word) : Byte := w.extractLsb' 0 8

/-- `MASK[k] = w[24 + k]` (R83). -/
def maskField (w : Word) : Mask := ⟨w.getLsbD 24, w.getLsbD 25, w.getLsbD 26⟩

/-- `IMM16 = w[15:0]` (R83). -/
def immField (w : Word) : Half := w.extractLsb' 0 16

/-- ASMI's high byte, `IMM16[15:8]` (R83). -/
def immHigh (w : Word) : Byte := w.extractLsb' 8 8

/-- ASMI's low byte, `IMM16[7:0]` (R83). -/
def immLow (w : Word) : Byte := w.extractLsb' 0 8

/-- The destination that a `DST` value names: 0, 1, 2 are RES0 to RES2, 3 is none (R82). -/
def dstOf (d : BitVec 2) : Option Lane :=
  match d.toFin with
  | 0 => some .x
  | 1 => some .y
  | 2 => some .z
  | 3 => none

/-- `DST = w[25:24]` (R83). -/
def dstField (w : Word) : Option Lane := dstOf (w.extractLsb' 24 2)

/-- The command a word stands for: OP alone selects it (R81, R85). The last arm is OP = 0xF, the one value of four bits that
is left. -/
def decode (w : Word) : Instr :=
  match (opField w).toNat with
  | 0x0 => .reserved0
  | 0x1 => .rd (lenField w) (regField w)
  | 0x2 => .wr (lenField w) (regField w) (wdataField w)
  | 0x3 => .ident
  | 0x4 => .wake
  | 0x5 => .setacc2g
  | 0x6 => .setgyr250
  | 0x7 => .reserved7
  | 0x8 => .asm (maskField w)
  | 0x9 => .cvta (maskField w)
  | 0xA => .cvtg (maskField w)
  | 0xB => .cvtt (w.getLsbD 24)
  | 0xC => .asmi (dstField w) (immHigh w) (immLow w)
  | 0xD => .cvtai (dstField w) (immField w)
  | 0xE => .cvtgi (dstField w) (immField w)
  | _ => .cvtti (dstField w) (immField w)

/-- The `DST` value of a destination (R82). -/
def dstBits : Option Lane → BitVec 2
  | some .x => 0#2
  | some .y => 1#2
  | some .z => 2#2
  | none => 3#2

/-- The three bits `{MASK[2], MASK[1], MASK[0]}` of a mask (R82, R83). -/
def maskBits (m : Mask) : BitVec 3 := BitVec.ofBool m.z ++ BitVec.ofBool m.y ++ BitVec.ofBool m.x

/-- A format T word (R82), SBZ bits zero. -/
def formatT (op : BitVec 4) (len : BitVec 3) (reg wdata : Byte) : Word :=
  place 28 op ||| place 25 len ||| place 16 reg ||| place 0 wdata

/-- A format C word (R82), SBZ bits zero. -/
def formatC (op : BitVec 4) (mask : BitVec 3) : Word := place 28 op ||| place 24 mask

/-- A format I word (R82), SBZ bits zero. -/
def formatI (op : BitVec 4) (dst : BitVec 2) (imm : Half) : Word :=
  place 28 op ||| place 24 dst ||| place 0 imm

/-- The word of a command, every SBZ bit zero (R82, R84, R85). -/
def encode : Instr → Word
  | .reserved0 => formatT 0x0#4 0#3 0#8 0#8
  | .rd len reg => formatT 0x1#4 len reg 0#8
  | .wr len reg wdata => formatT 0x2#4 len reg wdata
  | .ident => formatT 0x3#4 0#3 0#8 0#8
  | .wake => formatT 0x4#4 0#3 0#8 0#8
  | .setacc2g => formatT 0x5#4 0#3 0#8 0#8
  | .setgyr250 => formatT 0x6#4 0#3 0#8 0#8
  | .reserved7 => formatT 0x7#4 0#3 0#8 0#8
  | .asm mask => formatC 0x8#4 (maskBits mask)
  | .cvta mask => formatC 0x9#4 (maskBits mask)
  | .cvtg mask => formatC 0xA#4 (maskBits mask)
  | .cvtt mask0 => formatC 0xB#4 (maskBits ⟨mask0, false, false⟩)
  | .asmi dst hi lo => formatI 0xC#4 (dstBits dst) (hi ++ lo)
  | .cvtai dst imm => formatI 0xD#4 (dstBits dst) imm
  | .cvtgi dst imm => formatI 0xE#4 (dstBits dst) imm
  | .cvtti dst imm => formatI 0xF#4 (dstBits dst) imm

/-- One row of the opcode map: the bits that select it, their values, and the bits its words leave zero (R84, R85). -/
structure OpcodeRow where
  mnemonic : String
  pattern : Word
  mask : Word
  sbz : Word
deriving DecidableEq, Repr, Inhabited

/-- Whether a row's selecting bits stand in a word. -/
def OpcodeRow.matches (r : OpcodeRow) (w : Word) : Bool := w &&& r.mask == r.pattern

/-- The transaction and reserved rows of the opcode map (R85). -/
def transactionRows : List OpcodeRow :=
  [⟨"(reserved)", 0x00000000#32, 0xF0000000#32, 0x0FFFFFFF#32⟩,
   ⟨"RD", 0x10000000#32, 0xF0000000#32, 0x0100FFFF#32⟩,
   ⟨"WR", 0x20000000#32, 0xF0000000#32, 0x0100FF00#32⟩,
   ⟨"IDENT", 0x30000000#32, 0xF0000000#32, 0x0FFFFFFF#32⟩,
   ⟨"WAKE", 0x40000000#32, 0xF0000000#32, 0x0FFFFFFF#32⟩,
   ⟨"SETACC2G", 0x50000000#32, 0xF0000000#32, 0x0FFFFFFF#32⟩,
   ⟨"SETGYR250", 0x60000000#32, 0xF0000000#32, 0x0FFFFFFF#32⟩,
   ⟨"(reserved)", 0x70000000#32, 0xF0000000#32, 0x0FFFFFFF#32⟩]

/-- The converter's rows of the opcode map (R85). -/
def conversionRows : List OpcodeRow :=
  [⟨"ASM", 0x80000000#32, 0xF0000000#32, 0x08FFFFFF#32⟩,
   ⟨"CVTA", 0x90000000#32, 0xF0000000#32, 0x08FFFFFF#32⟩,
   ⟨"CVTG", 0xA0000000#32, 0xF0000000#32, 0x08FFFFFF#32⟩,
   ⟨"CVTT", 0xB0000000#32, 0xF0000000#32, 0x0EFFFFFF#32⟩,
   ⟨"ASMI", 0xC0000000#32, 0xF0000000#32, 0x0CFF0000#32⟩,
   ⟨"CVTAI", 0xD0000000#32, 0xF0000000#32, 0x0CFF0000#32⟩,
   ⟨"CVTGI", 0xE0000000#32, 0xF0000000#32, 0x0CFF0000#32⟩,
   ⟨"CVTTI", 0xF0000000#32, 0xF0000000#32, 0x0CFF0000#32⟩]

/-- The opcode map (R85), in the order of OP. -/
def opcodeTable : List OpcodeRow := transactionRows ++ conversionRows

/-- The position of a command's row in the opcode map: its OP (R85). -/
def Instr.op : Instr → Fin 16
  | .reserved0 => 0x0
  | .rd _ _ => 0x1
  | .wr _ _ _ => 0x2
  | .ident => 0x3
  | .wake => 0x4
  | .setacc2g => 0x5
  | .setgyr250 => 0x6
  | .reserved7 => 0x7
  | .asm _ => 0x8
  | .cvta _ => 0x9
  | .cvtg _ => 0xA
  | .cvtt _ => 0xB
  | .asmi _ _ _ => 0xC
  | .cvtai _ _ => 0xD
  | .cvtgi _ _ => 0xE
  | .cvtti _ _ => 0xF

/-- The opcode map's row of a command (R85). -/
def Instr.row (i : Instr) : OpcodeRow := opcodeTable.getD i.op.val ⟨"", 0#32, 0#32, 0#32⟩

/-- What the decoder reads from an instruction of at most one word whose bits are `w` (R80: every command is one 32-bit
word; log 17). -/
def decodeTableWord (nbits w : Nat) : Option Instr :=
  if nbits ≤ 32 then some (decode (BitVec.ofNat 32 (w % 2 ^ nbits))) else none

end Sys2Proof
end

