-- ==== Sys2Proof/Machine/Arith.lean ====
section
/-!
DEFINITION. The converter's arithmetic (R131 to R140), on mathematical integers, which R135 shows to agree with int32.
-/

namespace Sys2Proof.Machine

/-- The temperature divisor (R9, R131). -/
def tempDiv : Int := 340

/-- The temperature offset in centi-degrees (R9, R131). -/
def tempOff : Int := 3653

/-- The angular-rate divisor (R9, R131). -/
def gyroDiv : Int := 131

/-- The saturation bounds, asymmetric on purpose (R9, R134). -/
def satHi : Int := 32767

/-- See `satHi`. -/
def satLo : Int := -32767

/-- `s16(u)` (R12): the two's-complement reading of a 16-bit pattern. -/
def s16 (u : Half) : Int := u.toInt

/-- The 16-bit pattern of an int16 value (R11). -/
def int16 (v : Int) : Half := BitVec.ofInt 16 v

/-- `sext_32` of an int16 result (R12, R23). -/
def sext32 (v : Half) : Word := v.signExtend 32

/-- Truncating division (R13). -/
def tdiv (n d : Int) : Int := n.tdiv d

/-- Symmetric rounding division (R132): the half divisor is added with the sign of the numerator, then truncated. -/
def rdiv (n d : Int) : Int := if 0 ≤ n then tdiv (n + d / 2) d else tdiv (n - d / 2) d

/-- Saturation (R134). -/
def sat (v : Int) : Int := if v > satHi then satHi else if v < satLo then satLo else v

/-- `TEMP` (R136) on the value: divide with rounding, add the offset, clamp. -/
def tempValue (raw : Int) : Int := sat (rdiv (raw * 100) tempDiv + tempOff)

/-- `GYRO` (R137) on the value: no clamp. -/
def gyroValue (raw : Int) : Int := rdiv (raw * 100) gyroDiv

/-- `ASM16` (R140): the high byte first, two's complement. -/
def asm16 (hi lo : Byte) : Half := (hi.setWidth 16 <<< 8) ||| lo.setWidth 16

/-- The result word of ASM and ASMI for a sample (R143, R147). -/
def asmWord (raw : Half) : Word := sext32 raw

/-- The result word of CVTG and CVTGI (R145, R149): `sext_32(GYRO(raw))`. -/
def gyroWord (raw : Half) : Word := sext32 (int16 (gyroValue (s16 raw)))

/-- The result word of CVTT and CVTTI (R146, R150): `sext_32(TEMP(raw))`. -/
def tempWord (raw : Half) : Word := sext32 (int16 (tempValue (s16 raw)))

/-- The three fields of a binary32 pattern (R138). -/
def binary32 (sign : Bool) (exponent : BitVec 8) (fraction : BitVec 23) : Word :=
  place 31 (BitVec.ofBool sign) ||| place 23 exponent ||| place 0 fraction

/-- `ACC` (R138): the binary32 pattern of raw / 16384, built with integer logic. -/
def accWord (raw : Half) : Word :=
  let v := s16 raw
  let m := v.natAbs
  let e := Nat.log2 m
  if v = 0 then 0x00000000#32
  else binary32 (decide (v < 0)) (BitVec.ofNat 8 (e + 113)) (BitVec.ofNat 23 ((m - 2 ^ e) * 2 ^ (23 - e)))

end Sys2Proof.Machine
end

