-- ==== Sys2Proof/Config.lean ====
section
/-!
DEFINITION. The parameters of a run (R9), the shape of the transport's free draws (R62, R64), and the free
values themselves: constants with no body, so that nothing can be proved about what they are.
-/

namespace Sys2Proof

/-- The legal values of `DEV_ADDR` (R9, R3): the default and the alternate strap. -/
inductive DevAddr where
  | strap68
  | strap69
deriving DecidableEq, Repr, Inhabited

/-- The 7-bit device address (R9). -/
def DevAddr.bits : DevAddr → BitVec 7
  | .strap68 => 0x68#7
  | .strap69 => 0x69#7

/-- The OPEN parameters of R9, fixed for a run (R10, R21). They stand in the state so that a statement about every
state covers every value of them (log 4). -/
structure Params where
  /-- `DEV_ADDR` (R10). -/
  devAddr : DevAddr
  /-- `TIMEOUT`, positive, in the host platform's time unit (R9, R181). -/
  timeout : Nat
  /-- `TRANSPORT_BOUND`: a valid, initialised transport is attached (R9, R192). -/
  bound : Bool
deriving DecidableEq, Repr, Inhabited

/-- The three ways in which the transport fails a request (R64). -/
inductive Failure where
  | busy
  | timeout
  | error
deriving DecidableEq, Repr, Inhabited

/-- What the transport and the sensor make of one request (R62, R64, R67). -/
inductive Verdict where
  /-- The request was served: a write is acknowledged, a read gets as many of these bytes as it asked for, fewer where
  there are fewer (R64 admits 0 to n bytes). -/
  | served (bytes : List Byte)
  /-- The request failed; `landed` says whether a write took effect in the sensor all the same (R67: old or new). -/
  | failed (why : Failure) (landed : Bool)
deriving DecidableEq, Repr, Inhabited

/-- One free draw of the transport: how many host steps may come before the answer (R64, R198, U12), and the answer. -/
structure Draw where
  delay : Nat
  verdict : Verdict
deriving DecidableEq, Repr, Inhabited

/-- The transport's draw where none was chosen from outside (R62: "The value of the answer is a free draw"). Nothing is
known of it (log 5). -/
opaque Config.freeDraw : Nat → Draw

/-- An unwritten byte lane of a host read of BUFA or BUFB (R40: "a free draw, a value under no law"; log 2). -/
opaque Config.freeByte : Nat → Byte

end Sys2Proof
end

