-- ==== Sys2Proof/Machine/Memory.lean ====
section
/-!
DEFINITION. The sensor register space (R50: 256 bytes at 8-bit addresses) as the block's own writes determine it: a list
of cells in one canonical form. An address that is not listed has no known byte: no write of the block has landed there
and its value is the sensor's own (R36, R39; log 9).
-/

namespace Sys2Proof.Machine

/-- Register address and byte, addresses strictly rising. -/
abbrev Memory := List Host.Cell

/-- Every address of a memory lies above `a`. -/
def Memory.above (a : Nat) : Memory → Bool
  | [] => true
  | (b, _) :: m => decide (a < b) && Memory.above a m

/-- The canonical form: addresses strictly rising, all of them in the 256-byte space (R50). -/
def Memory.wf : Memory → Bool
  | [] => true
  | (a, _) :: m => decide (a < 256) && Memory.above a m && Memory.wf m

/-- The byte known at an address, `none` where the block's writes say nothing of it. -/
def Memory.read? : Memory → Nat → Option Byte
  | [], _ => none
  | (b, v) :: m, a => if a = b then some v else Memory.read? m a

/-- A write of one byte, keeping the addresses in order. -/
def Memory.write : Memory → Nat → Byte → Memory
  | [], a, v => [(a, v)]
  | (b, w) :: m, a, v =>
    if a < b then (a, v) :: (b, w) :: m
    else if a = b then (a, v) :: m
    else (b, w) :: Memory.write m a v

end Sys2Proof.Machine
end

