-- ==== Sys2Proof/Machine/State.lean ====
section
/-!
DEFINITION. The state of the system as plain data: the block's own state (R21), the parameters of the run (R9), the
host, the transport and sensor, and the model's choice of who moves next and what is drawn. INVENTORY.md lists every
field with its rule and its reset value.
-/

namespace Sys2Proof.Machine

/-- The result codes (R170). -/
inductive Result where
  | ok
  | busy
  | timeout
  | transportError
deriving DecidableEq, Repr, Inhabited

/-- The fields of the status register (R21, R26); bits [31:5] are hard-wired 0 and have no storage. -/
structure Stat where
  active : Bool
  result : Result
  done : Bool
  rej : Bool
deriving DecidableEq, Repr, Inhabited

/-- A storage cell with the mark "written since reset" that R40 and R195 speak of. The value under a mark that is not set
is unspecified in the spec and is read by nothing (log 2). -/
structure Slot (α : Type) where
  value : α
  written : Bool
deriving DecidableEq, Repr, Inhabited

/-- The transaction commands (R17), the `op` that LATCH holds (R35). -/
inductive TxOp where
  | rd
  | wr
  | ident
  | wake
  | setacc2g
  | setgyr250
deriving DecidableEq, Repr, Inhabited

/-- `LATCH` (R21, R35): the accepted transaction command while it is in flight. -/
structure Latch where
  op : TxOp
  reg : Byte
  len : BitVec 3
  wdata : Byte
deriving DecidableEq, Repr, Inhabited

/-- A transport request (R63), with the framed device address and the bound. -/
inductive Request where
  | read (dev8 reg : Byte) (n timeout : Nat)
  | write (dev8 reg wdata : Byte) (timeout : Nat)
deriving DecidableEq, Repr, Inhabited

/-- A transport answer (R64). -/
inductive Answer where
  | data (bytes : List Byte)
  | ack
  | busy
  | timeout
  | error
deriving DecidableEq, Repr, Inhabited

/-- A host operation (R195): a write or a read of a host register, by its 3-bit word index (R32), or `WAIT` (R92). -/
inductive HostOp where
  | write (index : BitVec 3) (word : Word)
  | read (index : BitVec 3)
  | wait
deriving DecidableEq, Repr, Inhabited

/-- What one host read returned (R198). -/
structure Seen where
  index : BitVec 3
  value : Word
deriving DecidableEq, Repr, Inhabited

/-- A choice of the agent that takes a step (R198): the host, the transport answering the request in flight, the transport
answering the k-th request a reset abandoned (R190), or the platform asserting reset (R190). -/
inductive Turn where
  | host
  | transport
  | late (k : Nat)
  | reset
deriving DecidableEq, Repr, Inhabited

/-- The reasons a step has no next state. -/
inductive Fault where
  /-- Raised by ASM, CVTA, CVTG and CVTT when a selected lane reads a `BUF` byte nothing has written since reset: the spec asks
  a model for this fault (R40, R143, R197, D24, U1). Safe: the hardware would go on with an unspecified byte. -/
  | unwrittenBuf (i : Fin 6)
  /-- Raised by a host read of RES0, RES1 or RES2 while nothing has written that register since reset: the spec asks a model for
  this fault (R40, R197, D24, U1a). Safe: the hardware would return an unspecified word. -/
  | unwrittenRes (k : Fin 3)
  /-- Raised by `step` when no agent has anything enabled (R197 "no step", U17). Safe: no step exists. -/
  | noStep
deriving DecidableEq, Repr, Inhabited

/-- The reasons for refusing an instruction. No arm of exec and no meaning raises one: every word has a meaning (R89). -/
inductive Refusal where
  /-- Raised by exec for an instruction with no meaning yet. Safe: nothing is claimed of it. No arm raises it now. -/
  | notModelled (mnemonic : String)
deriving DecidableEq, Repr, Inhabited

/-- Everything the spec gives the machine, with its agents (R18, R21). -/
structure State where
  /-- STAT (R26). -/
  stat : Stat
  /-- `BUF[0..5]` (R25). -/
  buf : Vector (Slot Byte) 6
  /-- `RES[0..2]` (R23). -/
  res : Vector (Slot Word) 3
  /-- `LATCH` (R35). -/
  latch : Latch
  /-- The parameters of the run (R9). -/
  params : Params
  /-- The host's operations not yet performed (R24, R195). -/
  todo : List HostOp
  /-- The host's position in its sequence (R24). -/
  pos : Nat
  /-- What the host's reads returned, oldest first (R198). -/
  seen : List Seen
  /-- The sensor's registers as the block's landed writes determine them (R36, R67). -/
  sensor : Memory
  /-- The transport requests the block made, oldest first (R196). -/
  requests : List Request
  /-- The answers the transport gave, oldest first (R64). -/
  answers : List (Request × Answer)
  /-- The requests a reset abandoned and the transport has not answered (R190). -/
  abandoned : List Request
  /-- The transport's coming draws, chosen from outside (R62; log 5). -/
  draws : List Draw
  /-- Who moves next, chosen from outside (R198; log 6). -/
  turns : List Turn
  /-- How many more host steps come before the answer, where `turns` is silent (R64; log 6). -/
  patience : Nat
  /-- Which free value is taken next (log 5). -/
  freeIx : Nat
deriving DecidableEq, Repr, Inhabited

/-- What a meaning, and a step, answers. -/
abbrev Out := Host.Outcome State Fault Refusal

/-- STAT after reset (R39). -/
def Stat.reset : Stat := ⟨false, .ok, false, false⟩

/-- A cell nothing has written since reset (R40, R195). -/
def Slot.unwritten {α : Type} (v : α) : Slot α := ⟨v, false⟩

/-- `BUF` after reset: every byte unwritten (R39, R195). -/
def State.resetBuf : Vector (Slot Byte) 6 := Vector.replicate 6 (.unwritten 0#8)

/-- `RES` after reset: every register unwritten (R39, R195). -/
def State.resetRes : Vector (Slot Word) 3 := Vector.replicate 3 (.unwritten 0#32)

/-- `LATCH` after reset: unspecified and unobservable (R39; log 3). -/
def Latch.reset : Latch := ⟨.rd, 0#8, 0#3, 0#8⟩

/-- The parameters of the run from reset: the spec's default address, and for the OPEN ones the values of log 4. -/
def launchParams : Params := ⟨.strap68, 1, true⟩

/-- The machine right after reset (R39, R195), with no host operation placed (log 1). -/
def State.reset : State where
  stat := .reset
  buf := State.resetBuf
  res := State.resetRes
  latch := .reset
  params := launchParams
  todo := []
  pos := 0
  seen := []
  sensor := []
  requests := []
  answers := []
  abandoned := []
  draws := []
  turns := []
  patience := 0
  freeIx := 0

end Sys2Proof.Machine
end

