-- ==== Sys2Proof/Machine/Flags.lean ====
section
/-!
DEFINITION. The status register: its word (R26), and the three things that write it: acceptance and rejection of a command
(R100, R30) and completion (R171). The block has no condition codes (R31).
-/

namespace Sys2Proof.Machine

/-- The code of a result in STAT.RESULT (R26, R170). -/
def Result.code : Result → BitVec 2
  | .ok => 0b00#2
  | .busy => 0b01#2
  | .timeout => 0b10#2
  | .transportError => 0b11#2

/-- STAT as the host reads it: ACTIVE [0], RESULT [2:1], DONE [3], REJ [4], zero above (R26). -/
def Stat.word (t : Stat) : Word :=
  place 4 (BitVec.ofBool t.rej) ||| place 3 (BitVec.ofBool t.done) ||| place 1 t.result.code ||| place 0 (BitVec.ofBool t.active)

/-- Acceptance: `STAT.REJ <- 0; STAT.DONE <- 0` (R100, R28, R30). -/
def accept (s : State) : State := { s with stat := { s.stat with rej := false, done := false } }

/-- A CMD write ignored because ACTIVE = 1: `STAT.REJ <- 1` and nothing else (R30, R173). -/
def reject (s : State) : State := { s with stat := { s.stat with rej := true } }

/-- `complete(code)` (R171), this hardware's only form of raise (R14). -/
def complete (code : Result) (s : State) : State := { s with stat := { s.stat with result := code, done := true } }

/-- `STAT.ACTIVE <- b` (R101, R102). -/
def setActive (b : Bool) (s : State) : State := { s with stat := { s.stat with active := b } }

/-- What every CMD write does first (R100): the word is ignored while a transaction is in flight, and accepted otherwise. -/
def onCommand (body : State → Out) (s : State) : Out :=
  if s.stat.active then .next (reject s) else body (accept s)

end Sys2Proof.Machine
end

