-- ==== Sys2Proof/Machine/Operands.lean ====
section
/-!
DEFINITION. Reading and writing BUF and RES: the lanes and destinations of a conversion (R139), and the host's view of
the registers (R32, R34, R40).
-/

namespace Sys2Proof.Machine

/-- A written cell (R40). -/
def Slot.hold {α : Type} (v : α) : Slot α := ⟨v, true⟩

/-- What a cell holds, `none` while nothing has written it since reset (R40). -/
def Slot.read? {α : Type} (c : Slot α) : Option α := if c.written then some c.value else none

/-- A conversion's read of `BUF[i]`: a fault while nothing has written it (R40). -/
def readBuf (i : Fin 6) (s : State) : Except Fault Byte :=
  match s.buf[i].read? with
  | some b => .ok b
  | none => .error (.unwrittenBuf i)

/-- The index of lane k's high byte, `2k` (R25, R139). -/
def hiByte : Lane → Fin 6
  | .x => 0
  | .y => 2
  | .z => 4

/-- The index of lane k's low byte, `2k + 1` (R25, R139). -/
def loByte : Lane → Fin 6
  | .x => 1
  | .y => 3
  | .z => 5

/-- Lane k of BUF: `ASM16(BUF[2k], BUF[2k+1])` (R139). -/
def sample (k : Lane) (s : State) : Except Fault Half :=
  match readBuf (hiByte k) s with
  | .error e => .error e
  | .ok hi =>
    match readBuf (loByte k) s with
    | .error e => .error e
    | .ok lo => .ok (asm16 hi lo)

/-- `RES[k] <- v` (R14, R23). -/
def writeRes (k : Lane) (v : Word) (s : State) : State := { s with res := s.res.set k.idx (.hold v) }

/-- `RES[DST] <- v`, and nothing for DST = 3 (R139). -/
def writeDst (dst : Option Lane) (v : Word) (s : State) : State :=
  match dst with
  | none => s
  | some k => writeRes k v s

/-- One lane of a format-C command: where the mask selects it, `RES[k] <- f(lane k)` (R139). -/
def convertLane (f : Half → Word) (m : Mask) (k : Lane) (s : State) : Except Fault State :=
  if m.on k then
    match sample k s with
    | .error e => .error e
    | .ok raw => .ok (writeRes k (f raw) s)
  else .ok s

/-- The lanes of a format-C command, in order (R139: they are independent; log 16). -/
def convertLanes (f : Half → Word) (m : Mask) : List Lane → State → Except Fault State
  | [], s => .ok s
  | k :: ks, s =>
    match convertLane f m k s with
    | .error e => .error e
    | .ok t => convertLanes f m ks t

/-- A cell after a byte was received for it, or none was (R25). -/
def receive (old : Slot Byte) : Option Byte → Slot Byte
  | some b => .hold b
  | none => old

/-- `BUF[i] <- bs[i]` for every byte received; the others keep their contents (R25, R57). -/
def storeBuf (bs : List Byte) (s : State) : State :=
  { s with buf := Vector.ofFn fun i : Fin 6 => receive s.buf[i] bs[i.val]? }

/-- Byte lane i of a host read of BUFA or BUFB: exact where it is written, a free draw where it is not (R40). -/
def viewByte (i : Fin 6) (s : State) : Byte :=
  match s.buf[i].read? with
  | some b => b
  | none => Config.freeByte (s.freeIx + i.val)

/-- BUFA = `{BUF[0], BUF[1], BUF[2], BUF[3]}` (R32, R34). -/
def bufaWord (s : State) : Word :=
  place 24 (viewByte 0 s) ||| place 16 (viewByte 1 s) ||| place 8 (viewByte 2 s) ||| place 0 (viewByte 3 s)

/-- BUFB = `{BUF[4], BUF[5], 0x0000}` (R32, R34). -/
def bufbWord (s : State) : Word := place 24 (viewByte 4 s) ||| place 16 (viewByte 5 s)

/-- A host read of `RES[k]`: a fault while nothing has written it, as R40, R197, D24 and U1a ask of a model. -/
def readRes (k : Fin 3) (s : State) : Except Fault Word :=
  match s.res[k].read? with
  | some w => .ok w
  | none => .error (.unwrittenRes k)

/-- The value a host read of a register index returns (R32, R33). -/
def readReg (index : BitVec 3) (s : State) : Except Fault Word :=
  match index.toFin with
  | 0 => .ok 0x00000000#32
  | 1 => .ok s.stat.word
  | 2 => .ok (bufaWord s)
  | 3 => .ok (bufbWord s)
  | 4 => readRes 0 s
  | 5 => readRes 1 s
  | 6 => readRes 2 s
  | 7 => .ok 0x00000000#32

end Sys2Proof.Machine
end

