-- ==== Sys2Proof/Machine/RegMap.lean ====
section
/-!
DEFINITION. The sensor register map (R51), the address decoder (R52, R53), the fixed-function operands (R87) and the
framing of the device address (R65).
-/

namespace Sys2Proof.Machine

/-- The seven entries of the register map (R51). -/
inductive Block where
  | id
  | pwr
  | acfg
  | adata
  | gcfg
  | gdata
  | tdata
deriving DecidableEq, Repr, Inhabited

/-- The entries in the map's order (R51). -/
def Block.all : List Block := [.id, .pwr, .acfg, .adata, .gcfg, .gdata, .tdata]

/-- The start address of a declared block (R51). -/
def Block.start : Block → Byte
  | .id => 0x75#8
  | .pwr => 0x6B#8
  | .acfg => 0x1C#8
  | .adata => 0x3B#8
  | .gcfg => 0x1B#8
  | .gdata => 0x43#8
  | .tdata => 0x41#8

/-- The length of a declared block in bytes (R51). -/
def Block.length : Block → BitVec 3
  | .id => 1#3
  | .pwr => 1#3
  | .acfg => 1#3
  | .adata => 6#3
  | .gcfg => 1#3
  | .gdata => 6#3
  | .tdata => 2#3

/-- Whether an address lies in a declared block (R52, R53). -/
def Block.contains (b : Block) (a : Byte) : Bool :=
  decide (b.start.toNat ≤ a.toNat) && decide (a.toNat < b.start.toNat + b.length.toNat)

/-- `DECODE` (R52): the block an address belongs to, `none` for UNMAPPED. -/
def classify (a : Byte) : Option Block := Block.all.find? (·.contains a)

/-- Whether an access matches a declared block (R52). -/
def matchesBlock (reg : Byte) (n : BitVec 3) : Bool := Block.all.any fun b => b.start == reg && b.length == n

/-- `dev8 = DEV_ADDR << 1`, bit 0 zero (R63, R65). -/
def dev8 (p : Params) : Byte := p.devAddr.bits ++ 0#1

/-- Whether a transaction command reads or writes (R63, R87). -/
def TxOp.isRead : TxOp → Bool
  | .rd => true
  | .wr => false
  | .ident => true
  | .wake => false
  | .setacc2g => false
  | .setgyr250 => false

/-- The legal lengths: `READ_LENGTHS` and `WRITE_LENGTHS` (R9, R61, R100). -/
def TxOp.lengthLegal (op : TxOp) (n : BitVec 3) : Bool :=
  if op.isRead then n == 1#3 || n == 2#3 || n == 6#3 else n == 1#3

/-- The transport request of a latched command (R63, R101). -/
def Latch.request (l : Latch) (p : Params) : Request :=
  if l.op.isRead then .read (dev8 p) l.reg l.len.toNat p.timeout else .write (dev8 p) l.reg l.wdata p.timeout

/-- `IDENT`'s fixed operands (R87, R107). -/
def Latch.identify : Latch := ⟨.ident, Block.id.start, Block.id.length, 0x00#8⟩

/-- `WAKE`'s fixed operands (R87, R108). -/
def Latch.wakeUp : Latch := ⟨.wake, Block.pwr.start, Block.pwr.length, 0x00#8⟩

/-- `SETACC2G`'s fixed operands (R87, R109). -/
def Latch.accelRange : Latch := ⟨.setacc2g, Block.acfg.start, Block.acfg.length, 0x00#8⟩

/-- `SETGYR250`'s fixed operands (R87, R110). -/
def Latch.gyroRange : Latch := ⟨.setgyr250, Block.gcfg.start, Block.gcfg.length, 0x00#8⟩

end Sys2Proof.Machine
end

