-- ==== Sys2Proof/Machine/Ops.lean ====
section
/-!
DEFINITION. The shared operations: the common sequence of a transaction command (R100, R101), of a conversion command
(R100, R130) and of a reserved one (R86); the transport's answer and the completion (R102, R103), and the platform's
reset (R190). There is no trap entry and no return (R178, R179): a failing command completes with its code.
-/

namespace Sys2Proof.Machine

/-- The draw the transport takes next: the first of those chosen from outside, else a free one (R62; log 5). -/
def nextDraw (s : State) : Draw :=
  match s.draws with
  | d :: _ => d
  | [] => Config.freeDraw s.freeIx

/-- Issue (R101): the command is latched, ACTIVE is set, and one request is made. How long the transport takes to answer is
its draw (R64, U12). -/
def issue (l : Latch) (s : State) : State :=
  { setActive true s with
    latch := l
    requests := s.requests ++ [l.request s.params]
    patience := (nextDraw s).delay }

/-- The checks of a transaction command after its acceptance (R100), and its issue (R101). -/
def checkAndIssue (l : Latch) (s : State) : State :=
  if s.params.bound && l.op.lengthLegal l.len then issue l s else complete .transportError s

/-- A transaction command (R100). -/
def transact (l : Latch) (s : State) : Out := onCommand (fun t => .next (checkAndIssue l t)) s

/-- A format-C command (R100, R130, R139). -/
def convertBuf (f : Half → Word) (m : Mask) (s : State) : Out :=
  onCommand (fun t =>
    match convertLanes f m Lane.all t with
    | .error e => .fault e
    | .ok u => .next (complete .ok u)) s

/-- A format-I command (R100, R130, R139). -/
def convertImm (f : Half → Word) (dst : Option Lane) (raw : Half) (s : State) : Out :=
  onCommand (fun t => .next (complete .ok (writeDst dst (f raw) t))) s

/-- A reserved command (R86). -/
def completeReserved (s : State) : Out := onCommand (fun t => .next (complete .transportError t)) s

/-- The answer of a failed request (R64). -/
def failureAnswer : Failure → Answer
  | .busy => .busy
  | .timeout => .timeout
  | .error => .error

/-- The answer a verdict gives to a request: always one that R64 admits for it, and every such one for some verdict. -/
def answerOf (v : Verdict) (r : Request) : Answer :=
  match v, r with
  | .served bytes, .read _ _ n _ => .data (bytes.take n)
  | .served _, .write _ _ _ _ => .ack
  | .failed why _, _ => failureAnswer why

/-- Whether a write that gets this verdict takes effect in the sensor (R67). -/
def lands : Verdict → Bool
  | .served _ => true
  | .failed _ landed => landed

/-- The effect of an answered request on the sensor's registers (R67). A read stores nothing that the block knows of (R68). -/
def sensorEffect (v : Verdict) (r : Request) (m : Memory) : Memory :=
  match r with
  | .read _ _ _ _ => m
  | .write _ reg wdata _ => if lands v then m.write reg.toNat wdata else m

/-- The transport's part of an answer: the draw is consumed, the answer is recorded, the sensor has seen the request. -/
def settle (r : Request) (s : State) : State :=
  { s with
    sensor := sensorEffect (nextDraw s).verdict r s.sensor
    answers := s.answers ++ [(r, answerOf (nextDraw s).verdict r)]
    draws := s.draws.tail
    freeIx := s.freeIx + 1 }

/-- The code a completion reports for an answer to a command of length n (R102, R112). -/
def Answer.code (a : Answer) (n : Nat) : Result :=
  match a with
  | .data bs => if bs.length = n then .ok else .transportError
  | .ack => .ok
  | .busy => .busy
  | .timeout => .timeout
  | .error => .transportError

/-- The bytes an answer stores: all n of a full read, none otherwise (R66, R102, R103). -/
def Answer.stored (a : Answer) (n : Nat) : List Byte :=
  match a with
  | .data bs => if bs.length = n then bs else []
  | .ack => []
  | .busy => []
  | .timeout => []
  | .error => []

/-- Completion (R102), in one step. -/
def completeAnswer (a : Answer) (s : State) : State :=
  complete (a.code s.latch.len.toNat) (setActive false (storeBuf (a.stored s.latch.len.toNat) s))

/-- The request in flight while ACTIVE = 1 (R101). -/
def inFlight (s : State) : Request := s.latch.request s.params

/-- The transport step (R198): the request in flight is answered and its command completes. -/
def transportAnswer (s : State) : State :=
  completeAnswer (answerOf (nextDraw s).verdict (inFlight s)) (settle (inFlight s) s)

/-- The transport's late answer to the k-th request a reset abandoned: the block discards it (R190). -/
def lateAnswer (k : Nat) (s : State) : State :=
  match s.abandoned[k]? with
  | some r => { settle r s with abandoned := s.abandoned.eraseIdx k }
  | none => s

/-- The platform asserts reset (R190): the block's state takes its reset values (R39) and a transaction in flight is
abandoned. The parameters, the host and the sensor are not touched. -/
def platformReset (s : State) : State :=
  { s with
    stat := .reset
    buf := State.resetBuf
    res := State.resetRes
    latch := .reset
    abandoned := if s.stat.active then s.abandoned ++ [inFlight s] else s.abandoned }

end Sys2Proof.Machine
end

