-- ==== Sys2Proof/Machine/Conversion.lean ====
section
/-!
DEFINITION. The conversion commands (R143 to R150).
-/

namespace Sys2Proof.Machine

/-- ASM (R143): assemble the selected lanes of BUF. -/
def execAsm (mask : Mask) (s : State) : Out := convertBuf asmWord mask s

/-- CVTA (R144): acceleration of the selected lanes. -/
def execCvta (mask : Mask) (s : State) : Out := convertBuf accWord mask s

/-- CVTG (R145): angular rate of the selected lanes. -/
def execCvtg (mask : Mask) (s : State) : Out := convertBuf gyroWord mask s

/-- CVTT (R146): temperature of lane X where MASK[0] selects it. -/
def execCvtt (mask0 : Bool) (s : State) : Out := convertBuf tempWord ⟨mask0, false, false⟩ s

/-- ASMI (R147): assemble two immediate bytes. -/
def execAsmi (dst : Option Lane) (hi lo : Byte) (s : State) : Out := convertImm asmWord dst (asm16 hi lo) s

/-- CVTAI (R148): acceleration of an immediate sample. -/
def execCvtai (dst : Option Lane) (imm : Half) (s : State) : Out := convertImm accWord dst imm s

/-- CVTGI (R149): angular rate of an immediate sample. -/
def execCvtgi (dst : Option Lane) (imm : Half) (s : State) : Out := convertImm gyroWord dst imm s

/-- CVTTI (R150): temperature of an immediate sample. -/
def execCvtti (dst : Option Lane) (imm : Half) (s : State) : Out := convertImm tempWord dst imm s

end Sys2Proof.Machine
end

