-- ==== Sys2Proof/Machine/Reserved.lean ====
section
/-!
DEFINITION. The two reserved rows of the opcode map (R86).
-/

namespace Sys2Proof.Machine

/-- OP 0x0 (R86): accepted, completes TRANSPORT_ERROR. -/
def execReserved0 (s : State) : Out := completeReserved s

/-- OP 0x7 (R86): accepted, completes TRANSPORT_ERROR. -/
def execReserved7 (s : State) : Out := completeReserved s

end Sys2Proof.Machine
end

