-- ==== Sys2Proof/Machine/Transaction.lean ====
section
/-!
DEFINITION. The transaction commands (R105 to R110).
-/

namespace Sys2Proof.Machine

/-- RD (R105): read LEN bytes from REG. WDATA is SBZ, so the latched byte is zero (log 12). -/
def execRd (len : BitVec 3) (reg : Byte) (s : State) : Out := transact ⟨.rd, reg, len, 0x00#8⟩ s

/-- WR (R106): write WDATA to REG. -/
def execWr (len : BitVec 3) (reg wdata : Byte) (s : State) : Out := transact ⟨.wr, reg, len, wdata⟩ s

/-- IDENT (R107): read the identity register. -/
def execIdent (s : State) : Out := transact .identify s

/-- WAKE (R108): write 0x00 to the power-management register. -/
def execWake (s : State) : Out := transact .wakeUp s

/-- SETACC2G (R109): write 0x00 to the accelerometer configuration. -/
def execSetacc2g (s : State) : Out := transact .accelRange s

/-- SETGYR250 (R110): write 0x00 to the gyroscope configuration. -/
def execSetgyr250 (s : State) : Out := transact .gyroRange s

end Sys2Proof.Machine
end

