-- ==== Sys2Proof/Machine/Dispatch.lean ====
section
/-!
DEFINITION. One arm for each command (R85): what the block does when the host writes the command's word to CMD (R100).
-/

namespace Sys2Proof.Machine

/-- A write of a command to CMD (R100, R198). -/
def exec (i : Instr) (s : State) : Host.Outcome State Fault Refusal :=
  match i with
  | .reserved0 => Sys2Proof.Machine.execReserved0 s
  | .rd len reg => Sys2Proof.Machine.execRd len reg s
  | .wr len reg wdata => Sys2Proof.Machine.execWr len reg wdata s
  | .ident => Sys2Proof.Machine.execIdent s
  | .wake => Sys2Proof.Machine.execWake s
  | .setacc2g => Sys2Proof.Machine.execSetacc2g s
  | .setgyr250 => Sys2Proof.Machine.execSetgyr250 s
  | .reserved7 => Sys2Proof.Machine.execReserved7 s
  | .asm mask => Sys2Proof.Machine.execAsm mask s
  | .cvta mask => Sys2Proof.Machine.execCvta mask s
  | .cvtg mask => Sys2Proof.Machine.execCvtg mask s
  | .cvtt mask0 => Sys2Proof.Machine.execCvtt mask0 s
  | .asmi dst hi lo => Sys2Proof.Machine.execAsmi dst hi lo s
  | .cvtai dst imm => Sys2Proof.Machine.execCvtai dst imm s
  | .cvtgi dst imm => Sys2Proof.Machine.execCvtgi dst imm s
  | .cvtti dst imm => Sys2Proof.Machine.execCvtti dst imm s

end Sys2Proof.Machine
end

