-- ==== Sys2Proof/Machine/HostPort.lean ====
section
/-!
DEFINITION. The host's operations on the register port (R32, R33, R92, R198).
-/

namespace Sys2Proof.Machine

/-- A host write (R32, R33): index 0 is CMD and issues the word as a command; every other index ignores it. -/
def hostWrite (index : BitVec 3) (word : Word) (s : State) : Out :=
  if index = 0#3 then exec (decode word) s else .next s

/-- What the host saw is kept; a fresh free value is taken next time (R198; log 7, 2). -/
def see (index : BitVec 3) (value : Word) (s : State) : State :=
  { s with seen := s.seen ++ [⟨index, value⟩], freeIx := s.freeIx + 6 }

/-- A host read (R32, R33, R40): no state of the block changes. -/
def hostRead (index : BitVec 3) (s : State) : Out :=
  match readReg index s with
  | .error e => .fault e
  | .ok value => .next (see index value s)

/-- The host's next operation is done with, and its position advances by one (R24). -/
def advance (s : State) : State := { s with todo := s.todo.tail, pos := s.pos + 1 }

/-- One STAT read of a `WAIT`, which ends at the first read with ACTIVE = 0 (R92, R198; log 13). -/
def waitPoll (s : State) : Out := hostRead 1#3 (if s.stat.active then s else advance s)

/-- The host's step (R198): its next operation. -/
def hostStep (s : State) : Out :=
  match s.todo with
  | [] => .fault .noStep
  | .write index word :: _ => hostWrite index word (advance s)
  | .read index :: _ => hostRead index (advance s)
  | .wait :: _ => waitPoll s

end Sys2Proof.Machine
end

