-- ==== Sys2Proof/Machine/Schedule.lean ====
section
/-!
DEFINITION. Which agent takes the next step (R177, R198): the one that `turns` names, where it has something enabled; else
the transport once its patience is over or the host has nothing left to do, else the host (log 6).
-/

namespace Sys2Proof.Machine

/-- Whether an agent has a step (R198). -/
def enabled (t : Turn) (s : State) : Bool :=
  match t with
  | .host => !s.todo.isEmpty
  | .transport => s.stat.active
  | .late k => decide (k < s.abandoned.length)
  | .reset => true

/-- Who moves where `turns` does not say: a request in flight is answered after finitely many host steps (R64, R198). -/
def defaultTurn (s : State) : Option Turn :=
  if s.stat.active && (s.patience == 0 || s.todo.isEmpty) then some .transport
  else if !s.todo.isEmpty then some .host
  else if !s.abandoned.isEmpty then some (.late 0)
  else none

/-- Who takes the next step, `none` where no agent has one (R197, U17). -/
def chooseTurn (s : State) : Option Turn :=
  match s.turns with
  | t :: _ => if enabled t s then some t else defaultTurn s
  | [] => defaultTurn s

/-- The choice is used up: the first of `turns`, or one unit of patience. -/
def tick (s : State) : State :=
  match s.turns with
  | _ :: ts => { s with turns := ts }
  | [] => { s with patience := s.patience - 1 }

end Sys2Proof.Machine
end

