-- ==== Sys2Proof/Machine/Step.lean ====
section
/-!
DEFINITION. The step function: one step of one agent (R198).
-/

namespace Sys2Proof.Machine

/-- One step of the system (R198, R197). -/
def step (s : State) : Host.Outcome State Fault Refusal :=
  match chooseTurn s with
  | none => .fault .noStep
  | some .host => hostStep (tick s)
  | some .transport => .next (transportAnswer (tick s))
  | some (.late k) => .next (lateAnswer k (tick s))
  | some .reset => .next (platformReset (tick s))

/-- The host's next operation is a CMD write of the word `w`, and the host moves next: the load of one command from
outside the machine (log 1). -/
def State.withFetchWord (s : State) (nbits w : Nat) : State :=
  { s with
    todo := .write 0#3 (BitVec.ofNat 32 (w % 2 ^ nbits)) :: s.todo
    turns := .host :: s.turns }

end Sys2Proof.Machine
end

