-- ==== Sys2Proof/WellFormed.lean ====
section
/-!
DEFINITION. Which commands an assembler emits (R91). Every other command is still a legal word with a meaning (R88,
R86): well-formedness restricts software, never the hardware.
-/

namespace Sys2Proof

/-- `READ_LENGTHS` = 1, 2, 6 (R9, R61). -/
def readLengthOk (n : BitVec 3) : Bool := n == 1#3 || n == 2#3 || n == 6#3

/-- `WRITE_LENGTHS` = 1 (R9, R61). -/
def writeLengthOk (n : BitVec 3) : Bool := n == 1#3

/-- A command that R90's forms can write: RD with a legal length, WR with LEN = 1, and no reserved OP. -/
def Instr.wellFormed : Instr → Bool
  | .reserved0 => false
  | .rd len _ => readLengthOk len
  | .wr len _ _ => writeLengthOk len
  | .ident => true
  | .wake => true
  | .setacc2g => true
  | .setgyr250 => true
  | .reserved7 => false
  | .asm _ => true
  | .cvta _ => true
  | .cvtg _ => true
  | .cvtt _ => true
  | .asmi _ _ _ => true
  | .cvtai _ _ => true
  | .cvtgi _ _ => true
  | .cvtti _ _ => true

end Sys2Proof
end

