-- ==== Sys2Proof/Machine/Assembler.lean ====
section
/-!
DEFINITION. The assembly notation (R90), its refusals (R91) and the pseudo-instructions (R92), over a line as a list of
characters. It fixes how software names a command and says nothing of the hardware (D31; log 14).
-/

namespace Sys2Proof.Machine

/-- RD.ACC (R92): `RD 0x3B, 6`. -/
def rdAcc : Instr := .rd Block.adata.length Block.adata.start

/-- RD.GYR (R92): `RD 0x43, 6`. -/
def rdGyr : Instr := .rd Block.gdata.length Block.gdata.start

/-- RD.TMP (R92): `RD 0x41, 2`. -/
def rdTmp : Instr := .rd Block.tdata.length Block.tdata.start

/-- The host operation that issues a command (R24, R80). -/
def HostOp.command (i : Instr) : HostOp := .write 0#3 (encode i)

/-- What separates the parts of a line. -/
def isBlank (c : Char) : Bool := c == ' ' || c == '\t'

/-- A text without the blanks at its ends. -/
def trim (cs : List Char) : List Char := ((cs.dropWhile isBlank).reverse.dropWhile isBlank).reverse

/-- A line without its comment, which `;` starts (R90). -/
def stripComment (cs : List Char) : List Char := trim (cs.takeWhile (· != ';'))

/-- The parts of an operand text, separated by commas (R90). -/
def splitCommas : List Char → List (List Char)
  | [] => [[]]
  | c :: cs =>
    match c == ',', splitCommas cs with
    | true, parts => [] :: parts
    | false, p :: ps => (c :: p) :: ps
    | false, [] => [[c]]

/-- The operands of a line, blanks at their ends dropped; none where nothing stands. -/
def operandsOf (cs : List Char) : List (List Char) :=
  match trim cs with
  | [] => []
  | t => (splitCommas t).map trim

/-- The value of a digit in a base. -/
def digitOf (base : Nat) (c : Char) : Option Nat :=
  let v :=
    if '0' ≤ c && c ≤ '9' then c.toNat - 48
    else if 'A' ≤ c && c ≤ 'F' then c.toNat - 55
    else if 'a' ≤ c && c ≤ 'f' then c.toNat - 87
    else base
  if v < base then some v else none

/-- The number whose digits follow a value read so far. -/
def digitsFrom (base acc : Nat) : List Char → Option Nat
  | [] => some acc
  | c :: cs =>
    match digitOf base c with
    | some d => digitsFrom base (acc * base + d) cs
    | none => none

/-- A number with at least one digit. -/
def digits (base : Nat) (cs : List Char) : Option Nat := if cs.isEmpty then none else digitsFrom base 0 cs

/-- A number as it is written (R90). -/
inductive Num where
  | hex (v : Nat)
  | dec (v : Int)
deriving DecidableEq, Repr, Inhabited

/-- "Numbers are decimal (optionally signed) or `0x` hexadecimal" (R90). -/
def parseNum : List Char → Option Num
  | '0' :: 'x' :: cs => (digits 16 cs).map .hex
  | '-' :: cs => (digits 10 cs).map fun v => .dec (-(v : Int))
  | '+' :: cs => (digits 10 cs).map fun v => .dec v
  | cs => (digits 10 cs).map fun v => .dec v

/-- The value of a number. -/
def Num.value : Num → Int
  | .hex v => v
  | .dec v => v

/-- A reg or byte operand: 0 to 0xFF (R91). -/
def parseByte (cs : List Char) : Option Byte :=
  match parseNum cs with
  | some n => if 0 ≤ n.value ∧ n.value ≤ 0xFF then some (BitVec.ofInt 8 n.value) else none
  | none => none

/-- A length operand of RD: 1, 2 or 6 (R91). -/
def parseLen (cs : List Char) : Option (BitVec 3) :=
  match parseNum cs with
  | some n => if n.value = 1 ∨ n.value = 2 ∨ n.value = 6 then some (BitVec.ofInt 3 n.value) else none
  | none => none

/-- An immediate: decimal in [-32768, 32767] or hexadecimal up to 0xFFFF, as its 16-bit pattern (R90, R91). -/
def parseImm (cs : List Char) : Option Half :=
  match parseNum cs with
  | some (.hex v) => if v ≤ 0xFFFF then some (BitVec.ofNat 16 v) else none
  | some (.dec v) => if -32768 ≤ v ∧ v ≤ 32767 then some (BitVec.ofInt 16 v) else none
  | none => none

/-- A destination: r0, r1, r2, or `-` for none (R90, R91). -/
def parseDst : List Char → Option (Option Lane)
  | ['r', '0'] => some (some .x)
  | ['r', '1'] => some (some .y)
  | ['r', '2'] => some (some .z)
  | ['-'] => some none
  | _ => none

/-- A lane list: a non-empty subset of x, y, z in that order, or `-` for the empty mask (R90, R91). -/
def parseLanes (cs : List Char) : Option Mask :=
  if cs = ['-'] then some ⟨false, false, false⟩
  else
    let afterX := if cs.head? = some 'x' then cs.tail else cs
    let afterY := if afterX.head? = some 'y' then afterX.tail else afterX
    let afterZ := if afterY.head? = some 'z' then afterY.tail else afterY
    if cs.isEmpty || !afterZ.isEmpty then none
    else some ⟨cs.head? = some 'x', afterX.head? = some 'y', afterY.head? = some 'z'⟩

/-- A format-I command of a destination and an immediate (R90). -/
def immediateForm (make : Option Lane → Half → Instr) : List (List Char) → Option Instr
  | [d, v] =>
    match parseDst d, parseImm v with
    | some dst, some imm => some (make dst imm)
    | some _, none => none
    | none, _ => none
  | _ => none

/-- A format-C command of a lane list (R90). -/
def lanesForm (make : Mask → Instr) : List (List Char) → Option Instr
  | [ls] => (parseLanes ls).map make
  | _ => none

/-- A command without operands (R90). -/
def bareForm (i : Instr) (ops : List (List Char)) : Option Instr := if ops.isEmpty then some i else none

/-- `RD reg, len` (R90). -/
def rdForm : List (List Char) → Option Instr
  | [r, n] =>
    match parseByte r, parseLen n with
    | some reg, some len => some (.rd len reg)
    | some _, none => none
    | none, _ => none
  | _ => none

/-- `WR reg, byte` (R90). -/
def wrForm : List (List Char) → Option Instr
  | [r, v] =>
    match parseByte r, parseByte v with
    | some reg, some wdata => some (.wr 1#3 reg wdata)
    | some _, none => none
    | none, _ => none
  | _ => none

/-- `CVTT` or `CVTT -` (R90, R91). -/
def cvttForm : List (List Char) → Option Instr
  | [] => some (.cvtt true)
  | [['-']] => some (.cvtt false)
  | _ => none

/-- The command a mnemonic and its operands stand for (R90, R92). -/
def assembleForm (mnemonic : List Char) (ops : List (List Char)) : Option Instr :=
  if mnemonic = "RD".toList then rdForm ops
  else if mnemonic = "WR".toList then wrForm ops
  else if mnemonic = "IDENT".toList then bareForm .ident ops
  else if mnemonic = "WAKE".toList then bareForm .wake ops
  else if mnemonic = "SETACC2G".toList then bareForm .setacc2g ops
  else if mnemonic = "SETGYR250".toList then bareForm .setgyr250 ops
  else if mnemonic = "ASM".toList then lanesForm .asm ops
  else if mnemonic = "CVTA".toList then lanesForm .cvta ops
  else if mnemonic = "CVTG".toList then lanesForm .cvtg ops
  else if mnemonic = "CVTT".toList then cvttForm ops
  else if mnemonic = "ASMI".toList then
    immediateForm (fun dst imm => .asmi dst (imm.extractLsb' 8 8) (imm.extractLsb' 0 8)) ops
  else if mnemonic = "CVTAI".toList then immediateForm .cvtai ops
  else if mnemonic = "CVTGI".toList then immediateForm .cvtgi ops
  else if mnemonic = "CVTTI".toList then immediateForm .cvtti ops
  else if mnemonic = "RD.ACC".toList then bareForm rdAcc ops
  else if mnemonic = "RD.GYR".toList then bareForm rdGyr ops
  else if mnemonic = "RD.TMP".toList then bareForm rdTmp ops
  else none

/-- The command a line stands for, `none` where the assembler refuses it (R90, R91). -/
def assemble (line : List Char) : Option Instr :=
  let text := stripComment line
  assembleForm (text.takeWhile fun c => !isBlank c) (operandsOf (text.dropWhile fun c => !isBlank c))

/-- The host operation a line stands for: a CMD write, or WAIT, which is no command word (R92). -/
def assembleOp (line : List Char) : Option HostOp :=
  if stripComment line = "WAIT".toList then some .wait else (assemble line).map .command

end Sys2Proof.Machine
end

