-- ==== Sys2Proof/Safety.lean ====
section
/-!
DEFINITION. The invariant of the machine, the end of a run (R196), and the duties the spec lays on the host (R193, R200,
R201, R204). A duty restricts hosts, not the block: what the block does when one is broken is in the model.
-/

namespace Sys2Proof.Machine

/-- LATCH holds a command that passed the checks of R100, a fixed-function one with the operands of R87. The byte of an RD and of
an IDENT is 0, which is the model's choice (log 12). -/
def Latch.legal (l : Latch) : Bool :=
  match l.op with
  | .rd => l.op.lengthLegal l.len && l.wdata == 0x00#8
  | .wr => l.op.lengthLegal l.len
  | .ident => l == .identify
  | .wake => l == .wakeUp
  | .setacc2g => l == .accelRange
  | .setgyr250 => l == .gyroRange

/-- What holds of every state of a run: the sensor's memory keeps its canonical form, the bound is positive (R9), a request
is in flight exactly while ACTIVE = 1 and is the last one made (R27, R35, R101), DONE is 0 meanwhile (R28), STAT reads as
after reset while nothing has been accepted (R26, R39), and every request made is answered once, abandoned by a reset, or
in flight (R64, R69, R190). -/
structure State.Inv (s : State) : Prop where
  sensorCanonical : s.sensor.wf = true
  timeoutPositive : 0 < s.params.timeout
  activeBound : s.stat.active = true → s.params.bound = true
  activeNotDone : s.stat.active = true → s.stat.done = false
  activeLatch : s.stat.active = true → s.latch.legal = true
  activeRequest : s.stat.active = true → s.requests.getLast? = some (inFlight s)
  idleFresh : s.stat.active = false → s.stat.done = false → s.stat = .reset
  requestsCounted : s.requests.length =
    s.answers.length + s.abandoned.length + (if s.stat.active then 1 else 0)

/-- A run has ended (R196): the host has performed its last operation and no request is outstanding. -/
def State.final (s : State) : Bool := s.todo.isEmpty && !s.stat.active

/-- R200: the host does not write CMD while a transaction is in flight. -/
def waitsBeforeCommand (s : State) : Bool :=
  match s.todo with
  | .write index _ :: _ => !(index == 0#3 && s.stat.active)
  | .read _ :: _ => true
  | .wait :: _ => true
  | [] => true

/-- R201: the host reads BUF and RES only when DONE = 1 and ACTIVE = 0. -/
def readsWhenDone (s : State) : Bool :=
  match s.todo with
  | .read index :: _ => !(decide (2 ≤ index.toNat) && decide (index.toNat ≤ 6)) || (s.stat.done && !s.stat.active)
  | .write _ _ :: _ => true
  | .wait :: _ => true
  | [] => true

/-- R204: a conversion of BUF follows the read that filled its bytes. `last` is the last read command issued. -/
def paired (last : Option Instr) (i : Instr) : Bool :=
  match i with
  | .cvtt _ => last == some rdTmp
  | .cvta _ => last == some rdAcc
  | .cvtg _ => last == some rdGyr
  | .asm _ =>
    match last with
    | some (.rd len _) => len == 6#3
    | _ => false
  | _ => true

/-- The read command that fills BUF next, if the command is one (R25). -/
def readCommand (last : Option Instr) (i : Instr) : Option Instr :=
  match i with
  | .rd _ _ => some i
  | .ident => some i
  | _ => last

/-- R204 over a host's operations. -/
def pairsReads (last : Option Instr) : List HostOp → Bool
  | [] => true
  | .write index word :: ops =>
    if index = 0#3 then paired last (decode word) && pairsReads (readCommand last (decode word)) ops
    else pairsReads last ops
  | .read _ :: ops => pairsReads last ops
  | .wait :: ops => pairsReads last ops

/-- The recommended bring-up (R193): each command followed by WAIT and a read of STAT, IDENT's byte read through BUFA. -/
def bringUp : List HostOp :=
  [.command .ident, .wait, .read 1#3, .read 2#3,
   .command .wake, .wait, .read 1#3,
   .command .setacc2g, .wait, .read 1#3,
   .command .setgyr250, .wait, .read 1#3]

/-- The host's comparison of the identity byte, `BUFA[31:24]`, with 0x68 (R107, R193). -/
def identityMatches (bufa : Word) : Bool := bufa.extractLsb' 24 8 == 0x68#8

end Sys2Proof.Machine
end

