-- ==== Sys2Proof/Certificates/Slice0/Obligations.lean ====
section
/-!
DEFINITION. The statements for the provers. Each docstring names the rule of spec/ that the statement formalises.
-/

namespace Sys2Proof.Claims

open Sys2Proof.Machine

/-- The state after an issue (R101): LATCH holds the command, ACTIVE = 1, DONE and REJ are 0, RESULT is kept, one request is
made, and the wait for its answer is the transport's draw. Nothing else changes. -/
def issued (s : State) (l : Latch) (r : Request) : State :=
  { s with
    stat := ⟨true, s.stat.result, false, false⟩
    latch := l
    requests := s.requests ++ [r]
    patience := (nextDraw s).delay }

/-- The state after a command that completed in its accepting step with a code and wrote `res` (R41). -/
def completedWith (s : State) (code : Result) (res : Vector (Slot Word) 3) : State :=
  { s with stat := ⟨false, code, true, false⟩, res := res }

/-- Both bytes of lane k are written (R40). -/
def laneWritten (s : State) (k : Lane) : Prop :=
  s.buf[hiByte k].written = true ∧ s.buf[loByte k].written = true

/-- The sample of lane k, `ASM16(BUF[2k], BUF[2k+1])` (R139). -/
def laneSample (s : State) (k : Lane) : Half := asm16 s.buf[hiByte k].value s.buf[loByte k].value

/-- A format-C command completes OK in its accepting step: RES[k] becomes `f` of lane k where the mask selects it and is
unchanged where it does not, and nothing but STAT and RES changes (R139, R130). -/
def convertsLanes (out : Out) (s : State) (m : Mask) (f : Half → Word) : Prop :=
  ∃ res : Vector (Slot Word) 3, out = .next (completedWith s .ok res) ∧
    ∀ k : Lane, res[k.idx] = if m.on k then ⟨f (laneSample s k), true⟩ else s.res[k.idx]

/-- A format-I command completes OK in its accepting step: RES[DST] becomes the word, no register where there is no
destination, and nothing but STAT and RES changes (R139, R130). -/
def convertsImmediate (out : Out) (s : State) (dst : Option Lane) (v : Word) : Prop :=
  ∃ res : Vector (Slot Word) 3, out = .next (completedWith s .ok res) ∧
    ∀ k : Lane, res[k.idx] = if dst = some k then ⟨v, true⟩ else s.res[k.idx]

/-- The lanes of RES a conversion command may write (R139, R146): its mask, or its destination. -/
def writesLane (i : Instr) (k : Lane) : Bool :=
  match i with
  | .asm m => m.on k
  | .cvta m => m.on k
  | .cvtg m => m.on k
  | .cvtt m0 => m0 && k == .x
  | .asmi dst _ _ => dst == some k
  | .cvtai dst _ => dst == some k
  | .cvtgi dst _ => dst == some k
  | .cvtti dst _ => dst == some k
  | _ => false

/-- The conversion commands (R17): OP 0x8 to 0xF. -/
def isConversion (i : Instr) : Bool := decide (8 ≤ i.op.val)

/-- The transaction commands (R17): OP 0x1 to 0x6. -/
def isTransaction (i : Instr) : Bool := decide (1 ≤ i.op.val) && decide (i.op.val ≤ 6)

/-- The host's next step is a CMD write of the word w (R198). -/
def hostWrites (s : State) (w : Word) : Prop :=
  chooseTurn s = some .host ∧ s.todo.head? = some (.write 0#3 w)

end Sys2Proof.Claims

open Sys2Proof Sys2Proof.Machine Sys2Proof.Claims

/-! ## Encoding -/

/-- Decoding the encoding of any command, with every operand at every value, gives that command back: the formats of R82 and
the fields of R83 lose no bit. -/
def Obligations.DecodeInvertsEncode : Prop :=
  ∀ i : Instr, decode (encode i) = i

/-- R84: a word with nonzero SBZ bits stands for the same command as the word with those bits cleared, and that cleared word
is the command's own encoding. -/
def Obligations.SbzBitsAreIgnored : Prop :=
  ∀ w : Word,
    decode (w &&& ~~~(decode w).row.sbz) = decode w ∧
    encode (decode w) = w &&& ~~~(decode w).row.sbz

/-- R85, R89: of the sixteen rows of the opcode map exactly one matches a word, and it is the row of the command the word
decodes to. -/
def Obligations.ExactlyOneOpcodeRowMatches : Prop :=
  ∀ (w : Word) (k : Fin 16),
    (opcodeTable.getD k.val default).matches w = true ↔ k = (decode w).op

/-- R93: words written out from the spec's encodings decode to the commands they stand for, one for each format. -/
def Obligations.WorkedWordsDecode : Prop :=
  decode 0x1C3B0000#32 = .rd 6#3 0x3B#8 ∧
  decode 0x226B0080#32 = .wr 1#3 0x6B#8 0x80#8 ∧
  decode 0x30000000#32 = .ident ∧
  decode 0x95000000#32 = .cvta ⟨true, false, true⟩ ∧
  decode 0xB1000000#32 = .cvtt true ∧
  decode 0xC000FF85#32 = .asmi (some .x) 0xFF#8 0x85#8 ∧
  decode 0xE100FF7D#32 = .cvtgi (some .y) 0xFF7D#16 ∧
  decode 0xF3000000#32 = .cvtti none 0#16 ∧
  decode 0x70000000#32 = .reserved7

/-- R91: whatever line the assembler accepts, the command it emits has a legal length and no reserved OP. -/
def Obligations.AssemblerEmitsOnlyWellFormedCommands : Prop :=
  ∀ (line : List Char) (i : Instr), assemble line = some i → i.wellFormed = true

/-! ## Commands: acceptance, checks, issue -/

/-- R30: a command written while a transaction is in flight sets REJ and changes nothing else, whatever the command; the next
command that is accepted clears REJ. -/
def Obligations.CommandWhileActiveIsIgnored : Prop :=
  (∀ (i : Instr) (s : State), s.stat.active = true →
    exec i s = .next { s with stat := { s.stat with rej := true } }) ∧
  ∀ (i : Instr) (s t : State), s.stat.active = false → exec i s = .next t → t.stat.rej = false

/-- R105, R101: RD with a legal length issues one read request for LEN bytes at REG, whatever the register address. That the
latched byte of an RD is 0 is the model's choice (log 12), and the count of the wait is the model's (log 6). -/
def Obligations.RdIssuesOneReadRequest : Prop :=
  ∀ (len : BitVec 3) (reg : Byte) (s : State),
    s.stat.active = false → s.params.bound = true → (len = 1#3 ∨ len = 2#3 ∨ len = 6#3) →
    exec (.rd len reg) s =
      .next (issued s ⟨.rd, reg, len, 0#8⟩ (.read (dev8 s.params) reg len.toNat s.params.timeout))

/-- R106, R101: WR with LEN = 1 issues one write request of WDATA at REG, whatever the register address. -/
def Obligations.WrIssuesOneWriteRequest : Prop :=
  ∀ (reg wdata : Byte) (s : State), s.stat.active = false → s.params.bound = true →
    exec (.wr 1#3 reg wdata) s =
      .next (issued s ⟨.wr, reg, 1#3, wdata⟩ (.write (dev8 s.params) reg wdata s.params.timeout))

/-- R87, R100, R101, R107 to R110: IDENT, WAKE, SETACC2G and SETGYR250 issue their fixed request. R87 gives IDENT no byte: that
LATCH.wdata is 0 for it is the model's choice (log 12), and the count of the wait is the model's (log 6). -/
def Obligations.FixedFunctionCommandsIssueTheirRequest : Prop :=
  ∀ s : State, s.stat.active = false → s.params.bound = true →
    exec .ident s = .next (issued s ⟨.ident, 0x75#8, 1#3, 0#8⟩ (.read (dev8 s.params) 0x75#8 1 s.params.timeout)) ∧
    exec .wake s = .next (issued s ⟨.wake, 0x6B#8, 1#3, 0#8⟩ (.write (dev8 s.params) 0x6B#8 0x00#8 s.params.timeout)) ∧
    exec .setacc2g s =
      .next (issued s ⟨.setacc2g, 0x1C#8, 1#3, 0#8⟩ (.write (dev8 s.params) 0x1C#8 0x00#8 s.params.timeout)) ∧
    exec .setgyr250 s =
      .next (issued s ⟨.setgyr250, 0x1B#8, 1#3, 0#8⟩ (.write (dev8 s.params) 0x1B#8 0x00#8 s.params.timeout))

/-- R88, R100: RD with LEN not 1, 2 or 6 and WR with LEN not 1 complete TRANSPORT_ERROR with no request, and nothing but STAT
changes. -/
def Obligations.IllegalLengthCompletesWithError : Prop :=
  ∀ (len : BitVec 3) (reg wdata : Byte) (s : State), s.stat.active = false →
    (len ≠ 1#3 → len ≠ 2#3 → len ≠ 6#3 →
      exec (.rd len reg) s = .next (completedWith s .transportError s.res)) ∧
    (len ≠ 1#3 → exec (.wr len reg wdata) s = .next (completedWith s .transportError s.res))

/-- R192, R100: with no transport attached every transaction command completes TRANSPORT_ERROR with no request, and nothing
but STAT changes. -/
def Obligations.UnboundTransportFailsEveryTransaction : Prop :=
  ∀ (i : Instr) (s : State), isTransaction i = true → s.stat.active = false → s.params.bound = false →
    exec i s = .next (completedWith s .transportError s.res)

/-- R86: the words with OP 0x0 and OP 0x7 are the reserved commands. A reserved command written while a transaction is in flight
is ignored like any other (R30); accepted, it completes TRANSPORT_ERROR at once, makes no request and changes nothing but STAT. -/
def Obligations.ReservedCommandCompletesWithError : Prop :=
  (∀ w : Word, (w.extractLsb' 28 4 = 0x0#4 ↔ decode w = .reserved0) ∧
    (w.extractLsb' 28 4 = 0x7#4 ↔ decode w = .reserved7)) ∧
  ∀ s : State,
    (s.stat.active = false →
      exec .reserved0 s = .next (completedWith s .transportError s.res) ∧
      exec .reserved7 s = .next (completedWith s .transportError s.res)) ∧
    (s.stat.active = true →
      exec .reserved0 s = .next { s with stat := { s.stat with rej := true } } ∧
      exec .reserved7 s = .next { s with stat := { s.stat with rej := true } })

/-- The frame of the transaction and reserved commands, accepted or rejected, every form: RES, BUF, the sensor's memory at
every address, the parameters, the host's sequence and position, the answers and the free choices are unchanged. -/
def Obligations.TransactionCommandFrame : Prop :=
  ∀ (i : Instr) (s t : State), isConversion i = false → exec i s = .next t →
    t.res = s.res ∧ t.buf = s.buf ∧ t.params = s.params ∧
    (∀ a, t.sensor.read? a = s.sensor.read? a) ∧
    t.todo = s.todo ∧ t.pos = s.pos ∧ t.seen = s.seen ∧
    t.answers = s.answers ∧ t.abandoned = s.abandoned ∧
    t.draws = s.draws ∧ t.turns = s.turns ∧ t.freeIx = s.freeIx ∧
    t.stat.result = (if t.stat.done = true ∧ s.stat.active = false then .transportError else s.stat.result)

/-- The frame of the conversion commands, accepted or rejected, every form: BUF, LATCH, the requests, the sensor's memory at
every address, the parameters, the host's sequence and position and the lanes of RES that the mask or destination does not
select are unchanged; ACTIVE is unchanged. -/
def Obligations.ConversionCommandFrame : Prop :=
  ∀ (i : Instr) (s t : State), isConversion i = true → exec i s = .next t →
    t.buf = s.buf ∧ t.latch = s.latch ∧ t.params = s.params ∧ t.requests = s.requests ∧
    (∀ a, t.sensor.read? a = s.sensor.read? a) ∧
    (∀ k : Lane, writesLane i k = false → t.res[k.idx] = s.res[k.idx]) ∧
    t.stat.active = s.stat.active ∧
    t.todo = s.todo ∧ t.pos = s.pos ∧ t.seen = s.seen ∧
    t.answers = s.answers ∧ t.abandoned = s.abandoned ∧ t.patience = s.patience ∧
    t.draws = s.draws ∧ t.turns = s.turns ∧ t.freeIx = s.freeIx

/-! ## The transport's answer -/

/-- R102, R57, R25: a full answer to a read completes OK; byte i of the answer is in BUF[i] for i < n, the other bytes keep
their contents, and RES, LATCH, the sensor and the host are unchanged. -/
def Obligations.FullReadStoresEveryByte : Prop :=
  ∀ (s : State) (bytes : List Byte),
    chooseTurn s = some .transport → s.latch.op.isRead = true →
    (nextDraw s).verdict = .served bytes → s.latch.len.toNat ≤ bytes.length →
    ∃ t, step s = .next t ∧
      t.stat = ⟨false, .ok, true, s.stat.rej⟩ ∧
      (∀ i : Fin 6, t.buf[i] =
        if i.val < s.latch.len.toNat then ⟨bytes.getD i.val 0#8, true⟩ else s.buf[i]) ∧
      t.answers = s.answers ++ [(inFlight s, .data (bytes.take s.latch.len.toNat))] ∧
      t.res = s.res ∧ t.latch = s.latch ∧ t.sensor = s.sensor ∧ t.params = s.params ∧
      t.requests = s.requests ∧ t.todo = s.todo ∧ t.pos = s.pos ∧ t.seen = s.seen

/-- R112, R103: an answer with fewer bytes than requested completes TRANSPORT_ERROR and writes no byte of BUF. -/
def Obligations.ShortReadIsAnError : Prop :=
  ∀ (s : State) (bytes : List Byte),
    chooseTurn s = some .transport → s.latch.op.isRead = true →
    (nextDraw s).verdict = .served bytes → bytes.length < s.latch.len.toNat →
    ∃ t, step s = .next t ∧
      t.stat = ⟨false, .transportError, true, s.stat.rej⟩ ∧ t.buf = s.buf ∧
      t.res = s.res ∧ t.sensor = s.sensor ∧ t.requests = s.requests

/-- R102, R103: Busy, Timeout and Error complete with BUSY, TIMEOUT and TRANSPORT_ERROR, for a read and for a write; no byte
of BUF is written and no further request is made. -/
def Obligations.FailedAnswerReportsItsKind : Prop :=
  ∀ (s : State) (why : Failure) (landed : Bool),
    chooseTurn s = some .transport → (nextDraw s).verdict = .failed why landed →
    ∃ t, step s = .next t ∧
      t.stat = ⟨false, match why with
        | .busy => .busy
        | .timeout => .timeout
        | .error => .transportError, true, s.stat.rej⟩ ∧
      t.buf = s.buf ∧ t.res = s.res ∧ t.requests = s.requests

/-- R67, R102: an acknowledged write completes OK and the sensor's register at LATCH.reg has been written with LATCH.wdata;
every other register of the sensor is unchanged, and so are BUF and RES. -/
def Obligations.AcknowledgedWriteReachesTheSensor : Prop :=
  ∀ (s : State) (bytes : List Byte),
    chooseTurn s = some .transport → s.latch.op.isRead = false →
    (nextDraw s).verdict = .served bytes →
    ∃ t, step s = .next t ∧
      t.stat = ⟨false, .ok, true, s.stat.rej⟩ ∧ t.buf = s.buf ∧ t.res = s.res ∧
      t.sensor.read? s.latch.reg.toNat = some s.latch.wdata ∧
      ∀ a, a ≠ s.latch.reg.toNat → t.sensor.read? a = s.sensor.read? a

/-- R67: after a failed write the sensor's register holds its old value or the byte, as the draw says, and every other
register is unchanged. -/
def Obligations.FailedWriteLeavesOldOrNew : Prop :=
  ∀ (s : State) (why : Failure) (landed : Bool),
    chooseTurn s = some .transport → s.latch.op.isRead = false →
    (nextDraw s).verdict = .failed why landed →
    ∃ t, step s = .next t ∧
      t.sensor.read? s.latch.reg.toNat =
        (if landed then some s.latch.wdata else s.sensor.read? s.latch.reg.toNat) ∧
      ∀ a, a ≠ s.latch.reg.toNat → t.sensor.read? a = s.sensor.read? a

/-- R68, R108: two WAKE commands whose requests get the same verdict leave the sensor as one of them does. -/
def Obligations.WakeTwiceIsWakeOnce : Prop :=
  ∀ (v : Verdict) (p : Params) (m : Memory),
    sensorEffect v (Latch.wakeUp.request p) (sensorEffect v (Latch.wakeUp.request p) m) =
      sensorEffect v (Latch.wakeUp.request p) m

/-- R111: a transaction command that passes its checks and is answered Timeout reports TIMEOUT (STAT = 0x0C) and writes no
byte of BUF. -/
def Obligations.TimedOutTransactionReportsTimeout : Prop :=
  ∀ (i : Instr) (s t : State) (landed : Bool),
    isTransaction i = true → s.stat.active = false → exec i s = .next t → t.stat.active = true →
    (nextDraw t).verdict = .failed .timeout landed →
    (transportAnswer t).stat.word = 0x0000000C#32 ∧ (transportAnswer t).buf = s.buf

/-- R64: the answer a verdict gives is one the rule admits for the request: to a read at most n bytes of data, to a write an
acknowledgement, or one of the three failures; and every admissible answer, an acknowledgement among them, is given by some
verdict. -/
def Obligations.AnswersAreTheAdmissibleOnes : Prop :=
  (∀ (v : Verdict) (d reg : Byte) (n timeout : Nat) (a : Answer),
    answerOf v (.read d reg n timeout) = a →
      (∃ bs, a = .data bs ∧ bs.length ≤ n) ∨ a = .busy ∨ a = .timeout ∨ a = .error) ∧
  (∀ (v : Verdict) (d reg w : Byte) (timeout : Nat) (a : Answer),
    answerOf v (.write d reg w timeout) = a → a = .ack ∨ a = .busy ∨ a = .timeout ∨ a = .error) ∧
  (∀ (d reg : Byte) (n timeout : Nat) (bs : List Byte), bs.length ≤ n →
    ∃ v, answerOf v (.read d reg n timeout) = .data bs) ∧
  (∀ (d reg w : Byte) (timeout : Nat), ∃ v, answerOf v (.write d reg w timeout) = .ack) ∧
  (∀ r : Request, (∃ v, answerOf v r = .busy) ∧ (∃ v, answerOf v r = .timeout) ∧ (∃ v, answerOf v r = .error))

/-! ## Conversion commands -/

/-- R143: ASM assembles the selected lanes; R139: the others are unchanged. -/
def Obligations.AsmAssemblesSelectedLanes : Prop :=
  ∀ (m : Mask) (s : State), s.stat.active = false → (∀ k, m.on k = true → laneWritten s k) →
    convertsLanes (exec (.asm m) s) s m (fun raw => raw.signExtend 32)

/-- R144: CVTA converts the selected lanes to acceleration; R139: the others are unchanged. -/
def Obligations.CvtaConvertsSelectedLanes : Prop :=
  ∀ (m : Mask) (s : State), s.stat.active = false → (∀ k, m.on k = true → laneWritten s k) →
    convertsLanes (exec (.cvta m) s) s m accWord

/-- R145: CVTG converts the selected lanes to angular rate; R139: the others are unchanged. -/
def Obligations.CvtgConvertsSelectedLanes : Prop :=
  ∀ (m : Mask) (s : State), s.stat.active = false → (∀ k, m.on k = true → laneWritten s k) →
    convertsLanes (exec (.cvtg m) s) s m
      (fun raw => (BitVec.ofInt 16 (rdiv (raw.toInt * 100) 131)).signExtend 32)

/-- R146: CVTT converts BUF[0], BUF[1] to temperature in RES0 where MASK[0] is set; RES1 and RES2 are unchanged. -/
def Obligations.CvttConvertsLaneX : Prop :=
  ∀ (m0 : Bool) (s : State), s.stat.active = false → (m0 = true → laneWritten s .x) →
    convertsLanes (exec (.cvtt m0) s) s ⟨m0, false, false⟩
      (fun raw => (BitVec.ofInt 16 (sat (rdiv (raw.toInt * 100) 340 + 3653))).signExtend 32)

/-- R147 to R150: the immediate conversions write RES[DST], or nothing for DST = 3, and complete OK. -/
def Obligations.ImmediateConversionsWriteTheirDestination : Prop :=
  ∀ (dst : Option Lane) (imm : Half) (hi lo : Byte) (s : State), s.stat.active = false →
    convertsImmediate (exec (.asmi dst hi lo) s) s dst ((hi ++ lo).signExtend 32) ∧
    convertsImmediate (exec (.cvtai dst imm) s) s dst (accWord imm) ∧
    convertsImmediate (exec (.cvtgi dst imm) s) s dst
      ((BitVec.ofInt 16 (rdiv (imm.toInt * 100) 131)).signExtend 32) ∧
    convertsImmediate (exec (.cvtti dst imm) s) s dst
      ((BitVec.ofInt 16 (sat (rdiv (imm.toInt * 100) 340 + 3653))).signExtend 32)

/-- R40: a format-C command whose mask selects a lane with a byte nothing has written since reset is a fault that names such
a byte. -/
def Obligations.UnwrittenLaneIsAFault : Prop :=
  ∀ (m : Mask) (s : State), s.stat.active = false → (∃ k, m.on k = true ∧ ¬ laneWritten s k) →
    ∃ i : Fin 6, s.buf[i].written = false ∧ (∃ k, m.on k = true ∧ (i = hiByte k ∨ i = loByte k)) ∧
      exec (.asm m) s = .fault (.unwrittenBuf i) ∧
      exec (.cvta m) s = .fault (.unwrittenBuf i) ∧
      exec (.cvtg m) s = .fault (.unwrittenBuf i) ∧
      (m.y = false → m.z = false → exec (.cvtt m.x) s = .fault (.unwrittenBuf i))

/-- R130, R31: what an accepted conversion command writes depends on BUF and its own operands alone: from two states with the
same BUF, whatever else they hold, it writes the same words. -/
def Obligations.ConversionsDependOnBufAlone : Prop :=
  ∀ (i : Instr) (s s' t : State), isConversion i = true →
    s.stat.active = false → s'.stat.active = false → s.buf = s'.buf → exec i s = .next t →
    ∃ t', exec i s' = .next t' ∧ t'.stat = t.stat ∧
      ∀ k : Lane, writesLane i k = true → t'.res[k.idx] = t.res[k.idx]

/-! ## Arithmetic -/

/-- R133: `rdiv` is odd and rounds the magnitude to nearest, halves away from zero, with the rule's two ties; R134: `sat` clamps
to -32767 and +32767. -/
def Obligations.RdivRoundsAwayFromZero : Prop :=
  (∀ n d : Int, 0 < d →
    rdiv (-n) d = -rdiv n d ∧ rdiv n d = n.sign * ((n.natAbs + d / 2) / d)) ∧
  rdiv 170 340 = 1 ∧ rdiv (-170) 340 = -1 ∧
  ∀ v : Int, sat v = max (-32767) (min 32767 v)

/-- R142 (d) for temperature: the result word reads as the centi-degree value nearest to raw * 100 / 340 + 3653, with no tie. -/
def Obligations.TemperatureIsTheNearestValue : Prop :=
  ∀ raw : Half, 2 * |340 * ((tempWord raw).toInt - 3653) - 100 * raw.toInt| < 340

/-- R142 (d) for angular rate: the result word reads as the value nearest to raw * 100 / 131, with no tie. -/
def Obligations.AngularRateIsTheNearestValue : Prop :=
  ∀ raw : Half, 2 * |131 * (gyroWord raw).toInt - 100 * raw.toInt| < 131

/-- R141: the output ranges over all 16-bit inputs, with their ends reached at the extreme inputs. -/
def Obligations.IntegerConversionRanges : Prop :=
  (∀ raw : Half, -5985 ≤ (tempWord raw).toInt ∧ (tempWord raw).toInt ≤ 13290 ∧
    -25014 ≤ (gyroWord raw).toInt ∧ (gyroWord raw).toInt ≤ 25013) ∧
  (tempWord 0x8000#16).toInt = -5985 ∧ (tempWord 0x7FFF#16).toInt = 13290 ∧
  (gyroWord 0x8000#16).toInt = -25014 ∧ (gyroWord 0x7FFF#16).toInt = 25013

/-- R142 (a), (b): temperature and angular rate do not decrease when raw grows, and both are odd (temperature about its offset)
at every raw but -32768, which has no negation. -/
def Obligations.IntegerConversionsAreMonotoneAndOdd : Prop :=
  (∀ a b : Half, a.toInt ≤ b.toInt →
    (tempWord a).toInt ≤ (tempWord b).toInt ∧ (gyroWord a).toInt ≤ (gyroWord b).toInt) ∧
  ∀ raw : Half, raw ≠ 0x8000#16 →
    (gyroWord (-raw)).toInt = -(gyroWord raw).toInt ∧
    (tempWord (-raw)).toInt - 3653 = -((tempWord raw).toInt - 3653)

/-- R138: read as a binary32 pattern (sign, biased exponent, fraction with a hidden 1), the acceleration word of a nonzero raw
is exactly raw / 2^14: its significand (2^23 + fraction) times 2^(exponent - 150) equals |raw| * 2^(-14), the exponent is that
of a normal number, and raw = 0 gives +0.0. -/
def Obligations.AccelerationIsExact : Prop :=
  accWord 0#16 = 0x00000000#32 ∧
  ∀ raw : Half, raw ≠ 0#16 →
    (accWord raw).getLsbD 31 = decide (raw.toInt < 0) ∧
    113 ≤ ((accWord raw).extractLsb' 23 8).toNat ∧ ((accWord raw).extractLsb' 23 8).toNat ≤ 128 ∧
    (2 ^ 23 + ((accWord raw).extractLsb' 0 23).toNat) * 2 ^ ((accWord raw).extractLsb' 23 8).toNat =
      raw.toInt.natAbs * 2 ^ 136

/-- R140, R142 (e): a sample is the two's-complement reading of its bytes, high byte first, and taking a sample apart and
assembling it gives it back. -/
def Obligations.SampleAssemblyIsBigEndian : Prop :=
  (∀ hi lo : Byte, (asm16 hi lo).toInt =
    if hi.toNat * 256 + lo.toNat < 32768 then (hi.toNat * 256 + lo.toNat : Int)
    else (hi.toNat * 256 + lo.toNat : Int) - 65536) ∧
  ∀ raw : Half, asm16 (raw.extractLsb' 8 8) (raw.extractLsb' 0 8) = raw

/-! ## The host's register port -/

/-- R26: the layout of STAT. -/
def Obligations.StatusWordLayout : Prop :=
  ∀ t : Stat,
    t.word.getLsbD 0 = t.active ∧
    t.word.extractLsb' 1 2 = (match t.result with
      | .ok => 0b00#2
      | .busy => 0b01#2
      | .timeout => 0b10#2
      | .transportError => 0b11#2) ∧
    t.word.getLsbD 3 = t.done ∧ t.word.getLsbD 4 = t.rej ∧ t.word.extractLsb' 5 27 = 0#27

/-- R34, R40: in BUFA and BUFB every byte lane that is written reads its exact value, in the wire's order, and BUFB[15:0] is 0. -/
def Obligations.BufferViewIsExactWhereWritten : Prop :=
  ∀ s : State,
    (s.buf[0].written = true → (bufaWord s).extractLsb' 24 8 = s.buf[0].value) ∧
    (s.buf[1].written = true → (bufaWord s).extractLsb' 16 8 = s.buf[1].value) ∧
    (s.buf[2].written = true → (bufaWord s).extractLsb' 8 8 = s.buf[2].value) ∧
    (s.buf[3].written = true → (bufaWord s).extractLsb' 0 8 = s.buf[3].value) ∧
    (s.buf[4].written = true → (bufbWord s).extractLsb' 24 8 = s.buf[4].value) ∧
    (s.buf[5].written = true → (bufbWord s).extractLsb' 16 8 = s.buf[5].value) ∧
    (bufbWord s).extractLsb' 0 16 = 0#16

/-- R32, R33: a host read returns what the map gives for its index, and changes nothing but the host's own position and what
it has seen (and the count of the free values taken, which is the model's). -/
def Obligations.HostReadReturnsTheRegister : Prop :=
  ∀ (s : State) (index : BitVec 3) (value : Word),
    chooseTurn s = some .host → s.todo.head? = some (.read index) →
    (index = 0#3 ∧ value = 0#32 ∨ index = 1#3 ∧ value = s.stat.word ∨
     index = 2#3 ∧ value = bufaWord s ∨ index = 3#3 ∧ value = bufbWord s ∨
     index = 4#3 ∧ s.res[0] = ⟨value, true⟩ ∨ index = 5#3 ∧ s.res[1] = ⟨value, true⟩ ∨
     index = 6#3 ∧ s.res[2] = ⟨value, true⟩ ∨ index = 7#3 ∧ value = 0#32) →
    ∃ t, step s = .next t ∧
      t.seen = s.seen ++ [⟨index, value⟩] ∧ t.todo = s.todo.tail ∧ t.pos = s.pos + 1 ∧
      t.stat = s.stat ∧ t.buf = s.buf ∧ t.res = s.res ∧ t.latch = s.latch ∧ t.params = s.params ∧
      t.requests = s.requests ∧ t.answers = s.answers ∧ t.abandoned = s.abandoned ∧
      ∀ a, t.sensor.read? a = s.sensor.read? a

/-- R40: a host read of RES0, RES1 or RES2 while nothing has written that register since reset is a fault. -/
def Obligations.UnwrittenResultReadIsAFault : Prop :=
  ∀ (s : State) (k : Fin 3),
    chooseTurn s = some .host → s.todo.head? = some (.read (BitVec.ofNat 3 (4 + k.val))) →
    s.res[k].written = false → step s = .fault (.unwrittenRes k)

/-- R33: a host write to a register other than CMD changes nothing of the block, the transport or the sensor. -/
def Obligations.OtherHostWritesAreIgnored : Prop :=
  ∀ (s : State) (index : BitVec 3) (word : Word),
    chooseTurn s = some .host → s.todo.head? = some (.write index word) → index ≠ 0#3 →
    step s = .next { tick s with todo := s.todo.tail, pos := s.pos + 1 }

/-- R92, R198: a WAIT is a sequence of STAT reads that ends with the first that finds ACTIVE = 0. That one step is one read, and
that the host's position passes a WAIT when it ends, is the model's reading (log 13). -/
def Obligations.WaitEndsWhenIdle : Prop :=
  ∀ s : State, chooseTurn s = some .host → s.todo.head? = some .wait →
    ∃ t, step s = .next t ∧ t.seen = s.seen ++ [⟨1#3, s.stat.word⟩] ∧ t.stat = s.stat ∧
      t.requests = s.requests ∧
      (s.stat.active = true → t.todo = s.todo ∧ t.pos = s.pos) ∧
      (s.stat.active = false → t.todo = s.todo.tail ∧ t.pos = s.pos + 1)

/-! ## Steps, agents, reset -/

/-- R198, R24: when the host moves and its next operation is a CMD write, the step is exec of the decoded command in the state
whose host has moved past that operation. -/
def Obligations.StepRunsTheDecodedCommand : Prop :=
  ∀ (s : State) (w : Word), hostWrites s w →
    step s = exec (decode w) { tick s with todo := s.todo.tail, pos := s.pos + 1 }

/-- R177: while a request is in flight and the host holds a CMD write, both orders are steps of the machine, by the choice of
who moves: the write first is ignored with REJ = 1, the answer first completes the command. -/
def Obligations.WriteAndAnswerRaceBothWays : Prop :=
  ∀ (s : State) (w : Word) (ops : List HostOp) (ts : List Turn),
    s.stat.active = true → s.todo = .write 0#3 w :: ops →
    (∃ t, step { s with turns := .host :: ts } = .next t ∧
      t.stat = { s.stat with rej := true } ∧ t.todo = ops ∧ t.requests = s.requests ∧ t.buf = s.buf) ∧
    (∃ t, step { s with turns := .transport :: ts } = .next t ∧
      t.stat.active = false ∧ t.stat.done = true ∧ t.todo = s.todo)

/-- R64, R198: a request in flight does not stay in flight. After finitely many steps, at most one more than the turns chosen
from outside and the transport's patience together, ACTIVE is 0, since the request has been answered or a reset has abandoned
it, unless a host read of an unwritten RES register stops the run first. The bound is the model's form of fairness (log 6). -/
def Obligations.EveryRequestIsAnswered : Prop :=
  ∀ s : State, s.stat.active = true →
    ∃ k, k ≤ s.turns.length + s.patience + 1 ∧
      ((∃ t : State, core.run k s = .next t ∧ t.stat.active = false) ∨
       ∃ i, core.run k s = .fault (.unwrittenRes i))

/-- R196, R197: once the run has ended, with no abandoned request left to answer and no reset to come, no agent has a step. -/
def Obligations.EndedRunHasNoStep : Prop :=
  ∀ s : State, s.final = true → s.abandoned = [] → s.turns = [] → step s = .fault .noStep

/-- R39, R195: the state after reset. -/
def Obligations.ResetLeavesStatusClear : Prop :=
  State.reset.stat.word = 0#32 ∧ (∀ i : Fin 6, State.reset.buf[i].written = false) ∧
  (∀ k : Fin 3, State.reset.res[k].written = false) ∧ State.reset.requests = [] ∧
  State.reset.params.devAddr.bits = 0x68#7

/-- R190: when the platform asserts reset, STAT is cleared, BUF and RES count as unwritten, a transaction in flight is
abandoned without a completion, and the sensor, the parameters and the host are untouched. -/
def Obligations.PlatformResetAbandonsTheTransaction : Prop :=
  ∀ s : State, chooseTurn s = some .reset →
    ∃ t, step s = .next t ∧ t.stat.word = 0#32 ∧
      (∀ i : Fin 6, t.buf[i].written = false) ∧ (∀ k : Fin 3, t.res[k].written = false) ∧
      t.answers = s.answers ∧ t.requests = s.requests ∧
      t.abandoned = s.abandoned ++ (if s.stat.active then [inFlight s] else []) ∧
      t.sensor = s.sensor ∧ t.params = s.params ∧ t.todo = s.todo ∧ t.pos = s.pos

/-- R190: an answer the transport gives later to an abandoned request is discarded: STAT, BUF, RES and LATCH are unchanged. -/
def Obligations.LateAnswerIsDiscarded : Prop :=
  ∀ (s : State) (k : Nat), chooseTurn s = some (.late k) → k < s.abandoned.length →
    ∃ t, step s = .next t ∧ t.stat = s.stat ∧ t.buf = s.buf ∧ t.res = s.res ∧ t.latch = s.latch ∧
      t.requests = s.requests ∧ t.abandoned = s.abandoned.eraseIdx k ∧ t.answers.length = s.answers.length + 1

/-! ## Whole-machine rules -/

/-- The invariant of Safety.lean is kept by every step of every agent. Where it says that the latched byte of an RD or an IDENT
is 0, it states the model's choice (log 12). -/
def Obligations.StepKeepsTheInvariant : Prop :=
  ∀ s t : State, s.Inv → step s = .next t → t.Inv

/-- The invariant holds after reset. -/
def Obligations.ResetMeetsTheInvariant : Prop := State.reset.Inv

/-- R104, R69: a step makes at most one request, and only by accepting a command while none is in flight. -/
def Obligations.RequestsComeOnlyFromAcceptedCommands : Prop :=
  ∀ s t : State, step s = .next t →
    t.requests = s.requests ∨
    ∃ w r, hostWrites s w ∧ isTransaction (decode w) = true ∧ s.stat.active = false ∧
      t.stat.active = true ∧ t.requests = s.requests ++ [r]

/-- R23: only conversion commands write RES, and only the lanes their mask or destination selects; a reset makes RES
unspecified again. -/
def Obligations.OnlyConversionsWriteResults : Prop :=
  ∀ (s t : State) (k : Lane), step s = .next t → t.res[k.idx] ≠ s.res[k.idx] →
    chooseTurn s = some .reset ∨
    ∃ w, hostWrites s w ∧ writesLane (decode w) k = true ∧ s.stat.active = false

/-- R25: BUF is written only by the completion of a successful read (RD or IDENT); a reset makes it unspecified again. -/
def Obligations.OnlySuccessfulReadsWriteTheBuffer : Prop :=
  ∀ s t : State, step s = .next t → t.buf ≠ s.buf →
    chooseTurn s = some .reset ∨
    (chooseTurn s = some .transport ∧ (s.latch.op = .rd ∨ s.latch.op = .ident) ∧
      t.stat = ⟨false, .ok, true, s.stat.rej⟩)

/-- R29, R171: RESULT is written only at a completion: in the transport's answer to the request in flight, or in the accepting
step of a command that completes there. A reset clears it. -/
def Obligations.ResultIsWrittenOnlyAtCompletion : Prop :=
  ∀ s t : State, step s = .next t → t.stat.result ≠ s.stat.result →
    chooseTurn s = some .reset ∨
    ((chooseTurn s = some .transport ∧ s.stat.active = true ∨
        s.stat.active = false ∧ ∃ w, hostWrites s w) ∧
      t.stat.done = true ∧ t.stat.active = false)

/-- R67, R36: only the transport's answer to a write changes what the block knows of the sensor, and only at that write's
register. -/
def Obligations.OnlyAnsweredWritesTouchTheSensor : Prop :=
  ∀ (s t : State) (a : Nat), step s = .next t → t.sensor.read? a ≠ s.sensor.read? a →
    ∃ d reg w timeout ans, a = reg.toNat ∧
      t.answers = s.answers ++ [(.write d reg w timeout, ans)] ∧ t.sensor.read? a = some w

/-- R10, R9, R21: no step changes a parameter of the run. That the parameters stand in State is the model's form (log 4). -/
def Obligations.ParametersAreFixedForARun : Prop :=
  ∀ s t : State, step s = .next t → t.params = s.params

/-- R200: a host that writes CMD only while ACTIVE = 0 never sees REJ set. -/
def Obligations.WaitingHostIsNeverRejected : Prop :=
  ∀ s t : State, waitsBeforeCommand s = true → s.stat.rej = false → step s = .next t → t.stat.rej = false

/-- R65: the framed address byte is the 7-bit device address shifted left by one, with bit 0 zero: 0xD0 for 0x68, 0xD2 for
0x69. -/
def Obligations.DeviceAddressIsFramed : Prop :=
  (∀ p : Params, (dev8 p).toNat = 2 * p.devAddr.bits.toNat) ∧
  ∀ (timeout : Nat) (bound : Bool),
    DevAddr.strap68.bits = 0x68#7 ∧ dev8 ⟨.strap68, timeout, bound⟩ = 0xD0#8 ∧
    DevAddr.strap69.bits = 0x69#7 ∧ dev8 ⟨.strap69, timeout, bound⟩ = 0xD2#8

/-- R52: the address decoder. -/
def Obligations.AddressDecoderMap : Prop :=
  ∀ a : Byte, classify a =
    if a = 0x75#8 then some .id else if a = 0x6B#8 then some .pwr
    else if a = 0x1C#8 then some .acfg else if a = 0x1B#8 then some .gcfg
    else if 0x3B ≤ a.toNat ∧ a.toNat ≤ 0x40 then some .adata
    else if a = 0x41#8 ∨ a = 0x42#8 then some .tdata
    else if 0x43 ≤ a.toNat ∧ a.toNat ≤ 0x48 then some .gdata
    else none
end

