-- ==== Sys2Proof/Laws/Encoding.lean ====
section
/-!
SUPPORT. What the three formats hold, field by field, and that they leave their SBZ bits zero (R82, R84).
-/

namespace Sys2Proof.Laws

open Sys2Proof.Machine (place)

/-- OP of a format T word. -/
theorem formatT_op (op : BitVec 4) (len : BitVec 3) (reg wdata : Byte) : opField (formatT op len reg wdata) = op := by
  ext i hi
  simp [opField, formatT, place]
  grind

/-- OP of a format C word. -/
theorem formatC_op (op : BitVec 4) (mask : BitVec 3) : opField (formatC op mask) = op := by
  ext i hi
  simp [opField, formatC, place]
  grind

/-- OP of a format I word. -/
theorem formatI_op (op : BitVec 4) (dst : BitVec 2) (imm : Half) : opField (formatI op dst imm) = op := by
  ext i hi
  simp [opField, formatI, place]
  grind

/-- LEN of a format T word. -/
theorem formatT_len (op : BitVec 4) (len : BitVec 3) (reg wdata : Byte) : lenField (formatT op len reg wdata) = len := by
  ext i hi
  simp [lenField, formatT, place]
  grind

/-- REG of a format T word. -/
theorem formatT_reg (op : BitVec 4) (len : BitVec 3) (reg wdata : Byte) : regField (formatT op len reg wdata) = reg := by
  ext i hi
  simp [regField, formatT, place]
  grind

/-- WDATA of a format T word. -/
theorem formatT_wdata (op : BitVec 4) (len : BitVec 3) (reg wdata : Byte) :
    wdataField (formatT op len reg wdata) = wdata := by
  ext i hi
  simp [wdataField, formatT, place]
  grind

/-- The mask of a format C word. -/
theorem formatC_mask (op : BitVec 4) (m : Mask) : maskField (formatC op (maskBits m)) = m := by
  obtain ⟨x, y, z⟩ := m
  simp only [maskField, formatC, place, Mask.mk.injEq]
  refine ⟨?_, ?_, ?_⟩ <;> cases x <;> cases y <;> cases z <;> simp [maskBits]

/-- A destination and its DST value (R82). -/
theorem dstOf_dstBits (dst : Option Lane) : dstOf (dstBits dst) = dst := by
  rcases dst with _ | _ | _ | _ <;> rfl

/-- DST of a format I word. -/
theorem formatI_dst (op : BitVec 4) (dst : Option Lane) (imm : Half) : dstField (formatI op (dstBits dst) imm) = dst := by
  have h : (formatI op (dstBits dst) imm).extractLsb' 24 2 = dstBits dst := by
    ext i hi
    simp [formatI, place]
    grind
  rw [dstField, h, dstOf_dstBits]

/-- IMM16 of a format I word. -/
theorem formatI_imm (op : BitVec 4) (dst : BitVec 2) (imm : Half) : immField (formatI op dst imm) = imm := by
  ext i hi
  simp [immField, formatI, place]
  grind

/-- The two bytes of IMM16 of a format I word. -/
theorem formatI_bytes (op : BitVec 4) (dst : BitVec 2) (hi lo : Byte) :
    immHigh (formatI op dst (hi ++ lo)) = hi ∧ immLow (formatI op dst (hi ++ lo)) = lo := by
  constructor
  · ext i hi'
    simp [immHigh, formatI, place]
    grind
  · ext i hi'
    simp [immLow, formatI, place]
    grind

/-- The selecting bits of a format T word are its OP. -/
theorem formatT_select (op : BitVec 4) (len : BitVec 3) (reg wdata : Byte) :
    formatT op len reg wdata &&& 0xF0000000#32 = place 28 op := by
  apply BitVec.eq_of_getLsbD_eq
  intro i hi
  interval_cases i <;> simp [formatT, place]

/-- The selecting bits of a format C word are its OP. -/
theorem formatC_select (op : BitVec 4) (mask : BitVec 3) : formatC op mask &&& 0xF0000000#32 = place 28 op := by
  apply BitVec.eq_of_getLsbD_eq
  intro i hi
  interval_cases i <;> simp [formatC, place]

/-- The selecting bits of a format I word are its OP. -/
theorem formatI_select (op : BitVec 4) (dst : BitVec 2) (imm : Half) :
    formatI op dst imm &&& 0xF0000000#32 = place 28 op := by
  apply BitVec.eq_of_getLsbD_eq
  intro i hi
  interval_cases i <;> simp [formatI, place]

/-- The SBZ bits that every format T word leaves zero: bit 24 and bits [15:8]. -/
theorem formatT_sbz (op : BitVec 4) (len : BitVec 3) (reg wdata : Byte) :
    formatT op len reg wdata &&& 0x0100FF00#32 = 0#32 := by
  apply BitVec.eq_of_getLsbD_eq
  intro i hi
  interval_cases i <;> simp [formatT, place]

/-- RD leaves WDATA zero as well. -/
theorem formatT_sbz_read (op : BitVec 4) (len : BitVec 3) (reg : Byte) :
    formatT op len reg 0#8 &&& 0x0100FFFF#32 = 0#32 := by
  apply BitVec.eq_of_getLsbD_eq
  intro i hi
  interval_cases i <;> simp [formatT, place]

/-- The SBZ bits of a format C word: bit 27 and bits [23:0]. -/
theorem formatC_sbz (op : BitVec 4) (mask : BitVec 3) : formatC op mask &&& 0x08FFFFFF#32 = 0#32 := by
  apply BitVec.eq_of_getLsbD_eq
  intro i hi
  interval_cases i <;> simp [formatC, place]

/-- The SBZ bits of a format I word: bits [27:26] and [23:16]. -/
theorem formatI_sbz (op : BitVec 4) (dst : BitVec 2) (imm : Half) :
    formatI op dst imm &&& 0x0CFF0000#32 = 0#32 := by
  apply BitVec.eq_of_getLsbD_eq
  intro i hi
  interval_cases i <;> simp [formatI, place]

end Sys2Proof.Laws
end

