-- ==== Sys2Proof/Laws/Memory.lean ====
section
/-!
SUPPORT. The laws of the sensor's register memory: a write keeps the canonical form, is read back, and leaves every other
address alone; two canonical memories that read alike are equal.
-/

namespace Sys2Proof.Machine

/-- What is above an address is above every lower one. -/
theorem Memory.above_mono {a b : Nat} (h : a ≤ b) : ∀ m : Memory, Memory.above b m = true → Memory.above a m = true
  | [], _ => rfl
  | (c, v) :: m, hm => by
    simp only [Memory.above, Bool.and_eq_true, decide_eq_true_eq] at hm ⊢
    exact ⟨by omega, Memory.above_mono h m hm.2⟩

/-- A write above an address stays above it. -/
theorem Memory.above_write {b a : Nat} (v : Byte) (h : b < a) :
    ∀ m : Memory, Memory.above b m = true → Memory.above b (Memory.write m a v) = true
  | [], _ => by simp [Memory.write, Memory.above, h]
  | (c, w) :: m, hm => by
    have hc := hm
    simp only [Memory.above, Bool.and_eq_true, decide_eq_true_eq] at hc
    unfold Memory.write
    split
    · simp [Memory.above, h, hc]
    · split
      · simp [Memory.above, h, hc.2]
      · simp [Memory.above, hc.1, Memory.above_write v h m hc.2]

/-- A write inside the address space keeps the canonical form. -/
theorem Memory.write_wf {a : Nat} (v : Byte) (ha : a < 256) :
    ∀ m : Memory, Memory.wf m = true → Memory.wf (Memory.write m a v) = true
  | [], _ => by simp [Memory.write, Memory.wf, Memory.above, ha]
  | (c, w) :: m, hm => by
    have hc := hm
    simp only [Memory.wf, Bool.and_eq_true, decide_eq_true_eq] at hc
    obtain ⟨⟨hlt, hab⟩, hw⟩ := hc
    unfold Memory.write
    split
    · rename_i h
      simp [Memory.wf, Memory.above, ha, hlt, hab, hw, h, Memory.above_mono (Nat.le_of_lt h) m hab]
    · split
      · rename_i h
        subst h
        simp [Memory.wf, ha, hab, hw]
      · rename_i h1 h2
        simp [Memory.wf, hlt, Memory.write_wf v ha m hw, Memory.above_write v (by omega : c < a) m hab]

/-- A read after a write to the same address gives the byte written. -/
@[simp] theorem Memory.read_write_same (a : Nat) (v : Byte) : ∀ m : Memory, (Memory.write m a v).read? a = some v
  | [] => by simp [Memory.write, Memory.read?]
  | (c, w) :: m => by
    unfold Memory.write
    split
    · simp [Memory.read?]
    · split
      · simp [Memory.read?]
      · rename_i h
        simp [Memory.read?, h, Memory.read_write_same a v m]

/-- A write leaves every other address alone. -/
theorem Memory.read_write_other {a b : Nat} (v : Byte) (h : b ≠ a) :
    ∀ m : Memory, (Memory.write m a v).read? b = m.read? b
  | [] => by simp [Memory.write, Memory.read?, h]
  | (c, w) :: m => by
    unfold Memory.write
    split
    · simp [Memory.read?, h]
    · split
      · rename_i hc
        subst hc
        simp [Memory.read?, h]
      · simp [Memory.read?, Memory.read_write_other v h m]

/-- What lies above an address knows nothing of it or of lower ones. -/
theorem Memory.read_above {a b : Nat} (h : b ≤ a) : ∀ m : Memory, Memory.above a m = true → m.read? b = none
  | [], _ => rfl
  | (c, v) :: m, hm => by
    simp only [Memory.above, Bool.and_eq_true, decide_eq_true_eq] at hm
    have hb : b ≠ c := by omega
    simp [Memory.read?, hb, Memory.read_above h m hm.2]

/-- Equal memories are equal data: two canonical memories that read alike at every address are the same list. -/
theorem Memory.ext_of_read : ∀ m n : Memory, Memory.wf m = true → Memory.wf n = true →
    (∀ a, m.read? a = n.read? a) → m = n
  | [], [], _, _, _ => rfl
  | [], (c, v) :: n, _, _, h => by simpa [Memory.read?] using h c
  | (c, v) :: m, [], _, _, h => by simpa [Memory.read?] using h c
  | (c, v) :: m, (d, w) :: n, hm, hn, h => by
    simp only [Memory.wf, Bool.and_eq_true, decide_eq_true_eq] at hm hn
    have hcd : c = d := by
      rcases Nat.lt_trichotomy c d with hlt | heq | hgt
      · have hc := h c
        have hne : c ≠ d := by omega
        simp [Memory.read?, hne, Memory.read_above (Nat.le_of_lt hlt) n hn.1.2] at hc
      · exact heq
      · have hd := h d
        have hne : d ≠ c := by omega
        simp [Memory.read?, hne, Memory.read_above (Nat.le_of_lt hgt) m hm.1.2] at hd
    subst hcd
    have hvw : v = w := by simpa [Memory.read?] using h c
    subst hvw
    have hmn : m = n := by
      refine Memory.ext_of_read m n hm.2 hn.2 fun a => ?_
      by_cases hac : a = c
      · subst hac
        rw [Memory.read_above (Nat.le_refl a) m hm.1.2, Memory.read_above (Nat.le_refl a) n hn.1.2]
      · simpa [Memory.read?, hac] using h a
    rw [hmn]

end Sys2Proof.Machine
end

