-- ==== Sys2Proof/Laws/State.lean ====
section
/-!
SUPPORT. One lemma for each field of the state under each operation that updates a state, so that no proof unfolds a record
update.
-/

namespace Sys2Proof.Machine

@[simp] theorem accept_stat (s : State) : (accept s).stat = { s.stat with rej := false, done := false } := rfl
@[simp] theorem accept_buf (s : State) : (accept s).buf = s.buf := rfl
@[simp] theorem accept_res (s : State) : (accept s).res = s.res := rfl
@[simp] theorem accept_latch (s : State) : (accept s).latch = s.latch := rfl
@[simp] theorem accept_params (s : State) : (accept s).params = s.params := rfl
@[simp] theorem accept_todo (s : State) : (accept s).todo = s.todo := rfl
@[simp] theorem accept_pos (s : State) : (accept s).pos = s.pos := rfl
@[simp] theorem accept_seen (s : State) : (accept s).seen = s.seen := rfl
@[simp] theorem accept_sensor (s : State) : (accept s).sensor = s.sensor := rfl
@[simp] theorem accept_requests (s : State) : (accept s).requests = s.requests := rfl
@[simp] theorem accept_answers (s : State) : (accept s).answers = s.answers := rfl
@[simp] theorem accept_abandoned (s : State) : (accept s).abandoned = s.abandoned := rfl
@[simp] theorem accept_draws (s : State) : (accept s).draws = s.draws := rfl
@[simp] theorem accept_turns (s : State) : (accept s).turns = s.turns := rfl
@[simp] theorem accept_patience (s : State) : (accept s).patience = s.patience := rfl
@[simp] theorem accept_freeIx (s : State) : (accept s).freeIx = s.freeIx := rfl

@[simp] theorem reject_stat (s : State) : (reject s).stat = { s.stat with rej := true } := rfl
@[simp] theorem reject_buf (s : State) : (reject s).buf = s.buf := rfl
@[simp] theorem reject_res (s : State) : (reject s).res = s.res := rfl
@[simp] theorem reject_latch (s : State) : (reject s).latch = s.latch := rfl
@[simp] theorem reject_params (s : State) : (reject s).params = s.params := rfl
@[simp] theorem reject_todo (s : State) : (reject s).todo = s.todo := rfl
@[simp] theorem reject_pos (s : State) : (reject s).pos = s.pos := rfl
@[simp] theorem reject_seen (s : State) : (reject s).seen = s.seen := rfl
@[simp] theorem reject_sensor (s : State) : (reject s).sensor = s.sensor := rfl
@[simp] theorem reject_requests (s : State) : (reject s).requests = s.requests := rfl
@[simp] theorem reject_answers (s : State) : (reject s).answers = s.answers := rfl
@[simp] theorem reject_abandoned (s : State) : (reject s).abandoned = s.abandoned := rfl
@[simp] theorem reject_draws (s : State) : (reject s).draws = s.draws := rfl
@[simp] theorem reject_turns (s : State) : (reject s).turns = s.turns := rfl
@[simp] theorem reject_patience (s : State) : (reject s).patience = s.patience := rfl
@[simp] theorem reject_freeIx (s : State) : (reject s).freeIx = s.freeIx := rfl

@[simp] theorem complete_stat (c : Result) (s : State) : (complete c s).stat = { s.stat with result := c, done := true } := rfl
@[simp] theorem complete_buf (c : Result) (s : State) : (complete c s).buf = s.buf := rfl
@[simp] theorem complete_res (c : Result) (s : State) : (complete c s).res = s.res := rfl
@[simp] theorem complete_latch (c : Result) (s : State) : (complete c s).latch = s.latch := rfl
@[simp] theorem complete_params (c : Result) (s : State) : (complete c s).params = s.params := rfl
@[simp] theorem complete_todo (c : Result) (s : State) : (complete c s).todo = s.todo := rfl
@[simp] theorem complete_pos (c : Result) (s : State) : (complete c s).pos = s.pos := rfl
@[simp] theorem complete_seen (c : Result) (s : State) : (complete c s).seen = s.seen := rfl
@[simp] theorem complete_sensor (c : Result) (s : State) : (complete c s).sensor = s.sensor := rfl
@[simp] theorem complete_requests (c : Result) (s : State) : (complete c s).requests = s.requests := rfl
@[simp] theorem complete_answers (c : Result) (s : State) : (complete c s).answers = s.answers := rfl
@[simp] theorem complete_abandoned (c : Result) (s : State) : (complete c s).abandoned = s.abandoned := rfl
@[simp] theorem complete_draws (c : Result) (s : State) : (complete c s).draws = s.draws := rfl
@[simp] theorem complete_turns (c : Result) (s : State) : (complete c s).turns = s.turns := rfl
@[simp] theorem complete_patience (c : Result) (s : State) : (complete c s).patience = s.patience := rfl
@[simp] theorem complete_freeIx (c : Result) (s : State) : (complete c s).freeIx = s.freeIx := rfl

@[simp] theorem setActive_stat (b : Bool) (s : State) : (setActive b s).stat = { s.stat with active := b } := rfl
@[simp] theorem setActive_buf (b : Bool) (s : State) : (setActive b s).buf = s.buf := rfl
@[simp] theorem setActive_res (b : Bool) (s : State) : (setActive b s).res = s.res := rfl
@[simp] theorem setActive_latch (b : Bool) (s : State) : (setActive b s).latch = s.latch := rfl
@[simp] theorem setActive_params (b : Bool) (s : State) : (setActive b s).params = s.params := rfl
@[simp] theorem setActive_todo (b : Bool) (s : State) : (setActive b s).todo = s.todo := rfl
@[simp] theorem setActive_pos (b : Bool) (s : State) : (setActive b s).pos = s.pos := rfl
@[simp] theorem setActive_seen (b : Bool) (s : State) : (setActive b s).seen = s.seen := rfl
@[simp] theorem setActive_sensor (b : Bool) (s : State) : (setActive b s).sensor = s.sensor := rfl
@[simp] theorem setActive_requests (b : Bool) (s : State) : (setActive b s).requests = s.requests := rfl
@[simp] theorem setActive_answers (b : Bool) (s : State) : (setActive b s).answers = s.answers := rfl
@[simp] theorem setActive_abandoned (b : Bool) (s : State) : (setActive b s).abandoned = s.abandoned := rfl
@[simp] theorem setActive_draws (b : Bool) (s : State) : (setActive b s).draws = s.draws := rfl
@[simp] theorem setActive_turns (b : Bool) (s : State) : (setActive b s).turns = s.turns := rfl
@[simp] theorem setActive_patience (b : Bool) (s : State) : (setActive b s).patience = s.patience := rfl
@[simp] theorem setActive_freeIx (b : Bool) (s : State) : (setActive b s).freeIx = s.freeIx := rfl

@[simp] theorem writeRes_stat (k : Lane) (v : Word) (s : State) : (writeRes k v s).stat = s.stat := rfl
@[simp] theorem writeRes_buf (k : Lane) (v : Word) (s : State) : (writeRes k v s).buf = s.buf := rfl
theorem writeRes_res (k : Lane) (v : Word) (s : State) : (writeRes k v s).res = s.res.set k.idx (.hold v) := rfl
@[simp] theorem writeRes_latch (k : Lane) (v : Word) (s : State) : (writeRes k v s).latch = s.latch := rfl
@[simp] theorem writeRes_params (k : Lane) (v : Word) (s : State) : (writeRes k v s).params = s.params := rfl
@[simp] theorem writeRes_todo (k : Lane) (v : Word) (s : State) : (writeRes k v s).todo = s.todo := rfl
@[simp] theorem writeRes_pos (k : Lane) (v : Word) (s : State) : (writeRes k v s).pos = s.pos := rfl
@[simp] theorem writeRes_seen (k : Lane) (v : Word) (s : State) : (writeRes k v s).seen = s.seen := rfl
@[simp] theorem writeRes_sensor (k : Lane) (v : Word) (s : State) : (writeRes k v s).sensor = s.sensor := rfl
@[simp] theorem writeRes_requests (k : Lane) (v : Word) (s : State) : (writeRes k v s).requests = s.requests := rfl
@[simp] theorem writeRes_answers (k : Lane) (v : Word) (s : State) : (writeRes k v s).answers = s.answers := rfl
@[simp] theorem writeRes_abandoned (k : Lane) (v : Word) (s : State) : (writeRes k v s).abandoned = s.abandoned := rfl
@[simp] theorem writeRes_draws (k : Lane) (v : Word) (s : State) : (writeRes k v s).draws = s.draws := rfl
@[simp] theorem writeRes_turns (k : Lane) (v : Word) (s : State) : (writeRes k v s).turns = s.turns := rfl
@[simp] theorem writeRes_patience (k : Lane) (v : Word) (s : State) : (writeRes k v s).patience = s.patience := rfl
@[simp] theorem writeRes_freeIx (k : Lane) (v : Word) (s : State) : (writeRes k v s).freeIx = s.freeIx := rfl

@[simp] theorem storeBuf_stat (bs : List Byte) (s : State) : (storeBuf bs s).stat = s.stat := rfl
@[simp] theorem storeBuf_res (bs : List Byte) (s : State) : (storeBuf bs s).res = s.res := rfl
@[simp] theorem storeBuf_latch (bs : List Byte) (s : State) : (storeBuf bs s).latch = s.latch := rfl
@[simp] theorem storeBuf_params (bs : List Byte) (s : State) : (storeBuf bs s).params = s.params := rfl
@[simp] theorem storeBuf_todo (bs : List Byte) (s : State) : (storeBuf bs s).todo = s.todo := rfl
@[simp] theorem storeBuf_pos (bs : List Byte) (s : State) : (storeBuf bs s).pos = s.pos := rfl
@[simp] theorem storeBuf_seen (bs : List Byte) (s : State) : (storeBuf bs s).seen = s.seen := rfl
@[simp] theorem storeBuf_sensor (bs : List Byte) (s : State) : (storeBuf bs s).sensor = s.sensor := rfl
@[simp] theorem storeBuf_requests (bs : List Byte) (s : State) : (storeBuf bs s).requests = s.requests := rfl
@[simp] theorem storeBuf_answers (bs : List Byte) (s : State) : (storeBuf bs s).answers = s.answers := rfl
@[simp] theorem storeBuf_abandoned (bs : List Byte) (s : State) : (storeBuf bs s).abandoned = s.abandoned := rfl
@[simp] theorem storeBuf_draws (bs : List Byte) (s : State) : (storeBuf bs s).draws = s.draws := rfl
@[simp] theorem storeBuf_turns (bs : List Byte) (s : State) : (storeBuf bs s).turns = s.turns := rfl
@[simp] theorem storeBuf_patience (bs : List Byte) (s : State) : (storeBuf bs s).patience = s.patience := rfl
@[simp] theorem storeBuf_freeIx (bs : List Byte) (s : State) : (storeBuf bs s).freeIx = s.freeIx := rfl

@[simp] theorem issue_stat (l : Latch) (s : State) : (issue l s).stat = { s.stat with active := true } := rfl
@[simp] theorem issue_buf (l : Latch) (s : State) : (issue l s).buf = s.buf := rfl
@[simp] theorem issue_res (l : Latch) (s : State) : (issue l s).res = s.res := rfl
@[simp] theorem issue_latch (l : Latch) (s : State) : (issue l s).latch = l := rfl
@[simp] theorem issue_params (l : Latch) (s : State) : (issue l s).params = s.params := rfl
@[simp] theorem issue_todo (l : Latch) (s : State) : (issue l s).todo = s.todo := rfl
@[simp] theorem issue_pos (l : Latch) (s : State) : (issue l s).pos = s.pos := rfl
@[simp] theorem issue_seen (l : Latch) (s : State) : (issue l s).seen = s.seen := rfl
@[simp] theorem issue_sensor (l : Latch) (s : State) : (issue l s).sensor = s.sensor := rfl
@[simp] theorem issue_requests (l : Latch) (s : State) : (issue l s).requests = s.requests ++ [l.request s.params] := rfl
@[simp] theorem issue_answers (l : Latch) (s : State) : (issue l s).answers = s.answers := rfl
@[simp] theorem issue_abandoned (l : Latch) (s : State) : (issue l s).abandoned = s.abandoned := rfl
@[simp] theorem issue_draws (l : Latch) (s : State) : (issue l s).draws = s.draws := rfl
@[simp] theorem issue_turns (l : Latch) (s : State) : (issue l s).turns = s.turns := rfl
@[simp] theorem issue_patience (l : Latch) (s : State) : (issue l s).patience = (nextDraw s).delay := rfl
@[simp] theorem issue_freeIx (l : Latch) (s : State) : (issue l s).freeIx = s.freeIx := rfl

@[simp] theorem settle_stat (r : Request) (s : State) : (settle r s).stat = s.stat := rfl
@[simp] theorem settle_buf (r : Request) (s : State) : (settle r s).buf = s.buf := rfl
@[simp] theorem settle_res (r : Request) (s : State) : (settle r s).res = s.res := rfl
@[simp] theorem settle_latch (r : Request) (s : State) : (settle r s).latch = s.latch := rfl
@[simp] theorem settle_params (r : Request) (s : State) : (settle r s).params = s.params := rfl
@[simp] theorem settle_todo (r : Request) (s : State) : (settle r s).todo = s.todo := rfl
@[simp] theorem settle_pos (r : Request) (s : State) : (settle r s).pos = s.pos := rfl
@[simp] theorem settle_seen (r : Request) (s : State) : (settle r s).seen = s.seen := rfl
@[simp] theorem settle_sensor (r : Request) (s : State) : (settle r s).sensor = sensorEffect (nextDraw s).verdict r s.sensor := rfl
@[simp] theorem settle_requests (r : Request) (s : State) : (settle r s).requests = s.requests := rfl
@[simp] theorem settle_answers (r : Request) (s : State) : (settle r s).answers = s.answers ++ [(r, answerOf (nextDraw s).verdict r)] := rfl
@[simp] theorem settle_abandoned (r : Request) (s : State) : (settle r s).abandoned = s.abandoned := rfl
@[simp] theorem settle_draws (r : Request) (s : State) : (settle r s).draws = s.draws.tail := rfl
@[simp] theorem settle_turns (r : Request) (s : State) : (settle r s).turns = s.turns := rfl
@[simp] theorem settle_patience (r : Request) (s : State) : (settle r s).patience = s.patience := rfl
@[simp] theorem settle_freeIx (r : Request) (s : State) : (settle r s).freeIx = s.freeIx + 1 := rfl

@[simp] theorem advance_stat (s : State) : (advance s).stat = s.stat := rfl
@[simp] theorem advance_buf (s : State) : (advance s).buf = s.buf := rfl
@[simp] theorem advance_res (s : State) : (advance s).res = s.res := rfl
@[simp] theorem advance_latch (s : State) : (advance s).latch = s.latch := rfl
@[simp] theorem advance_params (s : State) : (advance s).params = s.params := rfl
@[simp] theorem advance_todo (s : State) : (advance s).todo = s.todo.tail := rfl
@[simp] theorem advance_pos (s : State) : (advance s).pos = s.pos + 1 := rfl
@[simp] theorem advance_seen (s : State) : (advance s).seen = s.seen := rfl
@[simp] theorem advance_sensor (s : State) : (advance s).sensor = s.sensor := rfl
@[simp] theorem advance_requests (s : State) : (advance s).requests = s.requests := rfl
@[simp] theorem advance_answers (s : State) : (advance s).answers = s.answers := rfl
@[simp] theorem advance_abandoned (s : State) : (advance s).abandoned = s.abandoned := rfl
@[simp] theorem advance_draws (s : State) : (advance s).draws = s.draws := rfl
@[simp] theorem advance_turns (s : State) : (advance s).turns = s.turns := rfl
@[simp] theorem advance_patience (s : State) : (advance s).patience = s.patience := rfl
@[simp] theorem advance_freeIx (s : State) : (advance s).freeIx = s.freeIx := rfl

@[simp] theorem see_stat (i : BitVec 3) (v : Word) (s : State) : (see i v s).stat = s.stat := rfl
@[simp] theorem see_buf (i : BitVec 3) (v : Word) (s : State) : (see i v s).buf = s.buf := rfl
@[simp] theorem see_res (i : BitVec 3) (v : Word) (s : State) : (see i v s).res = s.res := rfl
@[simp] theorem see_latch (i : BitVec 3) (v : Word) (s : State) : (see i v s).latch = s.latch := rfl
@[simp] theorem see_params (i : BitVec 3) (v : Word) (s : State) : (see i v s).params = s.params := rfl
@[simp] theorem see_todo (i : BitVec 3) (v : Word) (s : State) : (see i v s).todo = s.todo := rfl
@[simp] theorem see_pos (i : BitVec 3) (v : Word) (s : State) : (see i v s).pos = s.pos := rfl
@[simp] theorem see_seen (i : BitVec 3) (v : Word) (s : State) : (see i v s).seen = s.seen ++ [⟨i, v⟩] := rfl
@[simp] theorem see_sensor (i : BitVec 3) (v : Word) (s : State) : (see i v s).sensor = s.sensor := rfl
@[simp] theorem see_requests (i : BitVec 3) (v : Word) (s : State) : (see i v s).requests = s.requests := rfl
@[simp] theorem see_answers (i : BitVec 3) (v : Word) (s : State) : (see i v s).answers = s.answers := rfl
@[simp] theorem see_abandoned (i : BitVec 3) (v : Word) (s : State) : (see i v s).abandoned = s.abandoned := rfl
@[simp] theorem see_draws (i : BitVec 3) (v : Word) (s : State) : (see i v s).draws = s.draws := rfl
@[simp] theorem see_turns (i : BitVec 3) (v : Word) (s : State) : (see i v s).turns = s.turns := rfl
@[simp] theorem see_patience (i : BitVec 3) (v : Word) (s : State) : (see i v s).patience = s.patience := rfl
@[simp] theorem see_freeIx (i : BitVec 3) (v : Word) (s : State) : (see i v s).freeIx = s.freeIx + 6 := rfl

@[simp] theorem platformReset_stat (s : State) : (platformReset s).stat = .reset := rfl
@[simp] theorem platformReset_buf (s : State) : (platformReset s).buf = State.resetBuf := rfl
@[simp] theorem platformReset_res (s : State) : (platformReset s).res = State.resetRes := rfl
@[simp] theorem platformReset_latch (s : State) : (platformReset s).latch = .reset := rfl
@[simp] theorem platformReset_params (s : State) : (platformReset s).params = s.params := rfl
@[simp] theorem platformReset_todo (s : State) : (platformReset s).todo = s.todo := rfl
@[simp] theorem platformReset_pos (s : State) : (platformReset s).pos = s.pos := rfl
@[simp] theorem platformReset_seen (s : State) : (platformReset s).seen = s.seen := rfl
@[simp] theorem platformReset_sensor (s : State) : (platformReset s).sensor = s.sensor := rfl
@[simp] theorem platformReset_requests (s : State) : (platformReset s).requests = s.requests := rfl
@[simp] theorem platformReset_answers (s : State) : (platformReset s).answers = s.answers := rfl
@[simp] theorem platformReset_abandoned (s : State) : (platformReset s).abandoned = if s.stat.active then s.abandoned ++ [inFlight s] else s.abandoned := rfl
@[simp] theorem platformReset_draws (s : State) : (platformReset s).draws = s.draws := rfl
@[simp] theorem platformReset_turns (s : State) : (platformReset s).turns = s.turns := rfl
@[simp] theorem platformReset_patience (s : State) : (platformReset s).patience = s.patience := rfl
@[simp] theorem platformReset_freeIx (s : State) : (platformReset s).freeIx = s.freeIx := rfl

/-- Byte i of BUF after a store: the received byte where there is one (R25, R57). -/
theorem storeBuf_get (bs : List Byte) (s : State) (i : Fin 6) :
    (storeBuf bs s).buf[i] = receive s.buf[i] bs[i.val]? := by
  simp [storeBuf]

/-- A store of no byte leaves BUF as it was (R103). -/
@[simp] theorem storeBuf_nil (s : State) : storeBuf [] s = s := by
  have h : (Vector.ofFn fun i : Fin 6 => receive s.buf[i] ([] : List Byte)[i.val]?) = s.buf := by
    ext i hi
    simp [receive]
  simp only [storeBuf, h]

@[simp] theorem tick_stat (s : State) : (tick s).stat = s.stat := by
  unfold tick; split <;> rfl
@[simp] theorem tick_buf (s : State) : (tick s).buf = s.buf := by
  unfold tick; split <;> rfl
@[simp] theorem tick_res (s : State) : (tick s).res = s.res := by
  unfold tick; split <;> rfl
@[simp] theorem tick_latch (s : State) : (tick s).latch = s.latch := by
  unfold tick; split <;> rfl
@[simp] theorem tick_params (s : State) : (tick s).params = s.params := by
  unfold tick; split <;> rfl
@[simp] theorem tick_todo (s : State) : (tick s).todo = s.todo := by
  unfold tick; split <;> rfl
@[simp] theorem tick_pos (s : State) : (tick s).pos = s.pos := by
  unfold tick; split <;> rfl
@[simp] theorem tick_seen (s : State) : (tick s).seen = s.seen := by
  unfold tick; split <;> rfl
@[simp] theorem tick_sensor (s : State) : (tick s).sensor = s.sensor := by
  unfold tick; split <;> rfl
@[simp] theorem tick_requests (s : State) : (tick s).requests = s.requests := by
  unfold tick; split <;> rfl
@[simp] theorem tick_answers (s : State) : (tick s).answers = s.answers := by
  unfold tick; split <;> rfl
@[simp] theorem tick_abandoned (s : State) : (tick s).abandoned = s.abandoned := by
  unfold tick; split <;> rfl
@[simp] theorem tick_draws (s : State) : (tick s).draws = s.draws := by
  unfold tick; split <;> rfl
@[simp] theorem tick_freeIx (s : State) : (tick s).freeIx = s.freeIx := by
  unfold tick; split <;> rfl

/-- Writing no destination writes nothing (R139). -/
@[simp] theorem writeDst_none (v : Word) (s : State) : writeDst none v s = s := rfl

/-- Writing a destination is writing its register (R139). -/
@[simp] theorem writeDst_some (k : Lane) (v : Word) (s : State) : writeDst (some k) v s = writeRes k v s := rfl

/-- The written lane holds the word. -/
theorem writeRes_same (k : Lane) (v : Word) (s : State) : (writeRes k v s).res[k.idx] = ⟨v, true⟩ := by
  simp [writeRes, Slot.hold]

/-- The other lanes are unchanged. -/
theorem writeRes_other (j k : Lane) (v : Word) (s : State) (h : k ≠ j) : (writeRes k v s).res[j.idx] = s.res[j.idx] := by
  cases j <;> cases k <;> simp_all [writeRes, Lane.idx]

/-- The draw taken next depends on the coming draws and the count of free values alone. -/
theorem nextDraw_congr {s t : State} (hd : t.draws = s.draws) (hf : t.freeIx = s.freeIx) : nextDraw t = nextDraw s := by
  simp [nextDraw, hd, hf]

@[simp] theorem nextDraw_tick (s : State) : nextDraw (tick s) = nextDraw s := nextDraw_congr (by simp) (by simp)

@[simp] theorem inFlight_tick (s : State) : inFlight (tick s) = inFlight s := by simp [inFlight]

end Sys2Proof.Machine
end

