-- ==== Sys2Proof/Laws/Ops.lean ====
section
/-!
SUPPORT. For each shared operation one lemma that says everything it can do, and for the step one inversion lemma.
-/

namespace Sys2Proof.Machine

/-- A command written while a transaction is in flight (R30). -/
theorem onCommand_active (body : State → Out) {s : State} (h : s.stat.active = true) :
    onCommand body s = .next (reject s) := by simp [onCommand, h]

/-- A command written while none is in flight (R100). -/
theorem onCommand_idle (body : State → Out) {s : State} (h : s.stat.active = false) :
    onCommand body s = body (accept s) := by simp [onCommand, h]

/-- A transaction command has three outcomes: rejected, issued, or stopped by a check (R100). -/
theorem transact_cases (l : Latch) (s : State) :
    (s.stat.active = true ∧ transact l s = .next (reject s)) ∨
    (s.stat.active = false ∧ s.params.bound = true ∧ l.op.lengthLegal l.len = true ∧
      transact l s = .next (issue l (accept s))) ∨
    (s.stat.active = false ∧ (s.params.bound && l.op.lengthLegal l.len) = false ∧
      transact l s = .next (complete .transportError (accept s))) := by
  cases ha : s.stat.active
  · have ht : transact l s = .next (checkAndIssue l (accept s)) := onCommand_idle _ ha
    by_cases hc : (s.params.bound && l.op.lengthLegal l.len) = true
    · have hb := hc
      rw [Bool.and_eq_true] at hb
      exact .inr (.inl ⟨rfl, hb.1, hb.2, ht.trans (congrArg _ (if_pos hc))⟩)
    · exact .inr (.inr ⟨rfl, by simpa using hc, ht.trans (congrArg _ (if_neg hc))⟩)
  · exact .inl ⟨rfl, onCommand_active _ ha⟩

/-- A reserved command is rejected or completes TRANSPORT_ERROR (R86). -/
theorem completeReserved_cases (s : State) :
    (s.stat.active = true ∧ completeReserved s = .next (reject s)) ∨
    (s.stat.active = false ∧ completeReserved s = .next (complete .transportError (accept s))) := by
  cases ha : s.stat.active
  · exact .inr ⟨rfl, by simp [completeReserved, onCommand_idle _ ha]⟩
  · exact .inl ⟨rfl, onCommand_active _ ha⟩

/-- A format-I command is rejected, or writes its destination and completes OK (R139). -/
theorem convertImm_cases (f : Half → Word) (dst : Option Lane) (raw : Half) (s : State) :
    (s.stat.active = true ∧ convertImm f dst raw s = .next (reject s)) ∨
    (s.stat.active = false ∧ convertImm f dst raw s = .next (complete .ok (writeDst dst (f raw) (accept s)))) := by
  cases ha : s.stat.active
  · exact .inr ⟨rfl, by simp [convertImm, onCommand_idle _ ha]⟩
  · exact .inl ⟨rfl, onCommand_active _ ha⟩

/-- A byte of BUF is read exactly where it is written (R40). -/
theorem readBuf_eq (i : Fin 6) (s : State) :
    readBuf i s = if s.buf[i].written then .ok s.buf[i].value else .error (.unwrittenBuf i) := by
  unfold readBuf Slot.read?
  cases s.buf[i].written <;> simp

/-- A lane is sampled where both its bytes are written; otherwise the first unwritten one is named (R139, R40). -/
theorem sample_eq (k : Lane) (s : State) :
    sample k s =
      if s.buf[hiByte k].written then
        if s.buf[loByte k].written then .ok (asm16 s.buf[hiByte k].value s.buf[loByte k].value)
        else .error (.unwrittenBuf (loByte k))
      else .error (.unwrittenBuf (hiByte k)) := by
  unfold sample
  rw [readBuf_eq, readBuf_eq]
  cases s.buf[hiByte k].written <;> cases s.buf[loByte k].written <;> simp

/-- A sample depends on BUF alone (R130). -/
theorem sample_congr (k : Lane) {s t : State} (h : t.buf = s.buf) : sample k t = sample k s := by
  rw [sample_eq, sample_eq, h]

/-- Converting lanes changes RES alone; each selected lane of the list is sampled from BUF and converted, and every other lane
is unchanged (R139). -/
theorem convertLanes_ok (f : Half → Word) (m : Mask) : ∀ (ks : List Lane) {s t : State},
    convertLanes f m ks s = .ok t →
      t = { s with res := t.res } ∧
      (∀ k, k ∈ ks → m.on k = true → ∃ raw, sample k s = .ok raw ∧ t.res[k.idx] = ⟨f raw, true⟩) ∧
      ∀ k, (k ∉ ks ∨ m.on k = false) → t.res[k.idx] = s.res[k.idx]
  | [], s, t, h => by
    simp only [convertLanes, Except.ok.injEq] at h
    subst h
    simp
  | j :: ks, s, t, h => by
    simp only [convertLanes] at h
    split at h
    · cases h
    · rename_i u hu
      obtain ⟨ht, hin, hout⟩ := convertLanes_ok f m ks h
      simp only [convertLane] at hu
      split at hu
      · rename_i hon
        split at hu
        · cases hu
        · rename_i raw hraw
          simp only [Except.ok.injEq] at hu
          subst hu
          refine ⟨by rw [ht]; simp [writeRes], fun k hk hmk => ?_, fun k hk => ?_⟩
          · by_cases hkks : k ∈ ks
            · obtain ⟨raw', hs, hr⟩ := hin k hkks hmk
              exact ⟨raw', by rw [← hs]; exact (sample_congr k rfl).symm, hr⟩
            · have hkj : k = j := by simpa [hkks] using hk
              subst hkj
              exact ⟨raw, hraw, (hout k (.inl hkks)).trans (writeRes_same _ _ _)⟩
          · rcases hk with hk | hk
            · simp only [List.mem_cons, not_or] at hk
              rw [hout k (.inl hk.2), writeRes_other _ _ _ _ (Ne.symm hk.1)]
            · have hkj : j ≠ k := by
                rintro rfl
                rw [hon] at hk
                cases hk
              rw [hout k (.inr hk), writeRes_other _ _ _ _ hkj]
      · rename_i hoff
        simp only [Except.ok.injEq] at hu
        subst hu
        refine ⟨ht, fun k hk hmk => ?_, fun k hk => hout k ?_⟩
        · refine hin k ?_ hmk
          rcases List.mem_cons.1 hk with rfl | hk
          · exact absurd hmk hoff
          · exact hk
        · rcases hk with hk | hk
          · exact .inl fun hmem => hk (List.mem_cons_of_mem _ hmem)
          · exact .inr hk

/-- Converting lanes fails exactly where a selected lane cannot be sampled, with that lane's fault (R40). -/
theorem convertLanes_error (f : Half → Word) (m : Mask) : ∀ (ks : List Lane) {s : State} {e : Fault},
    convertLanes f m ks s = .error e → ∃ k, k ∈ ks ∧ m.on k = true ∧ sample k s = .error e
  | [], s, e, h => by simp [convertLanes] at h
  | j :: ks, s, e, h => by
    simp only [convertLanes] at h
    split at h
    · rename_i e' he
      simp only [convertLane] at he
      split at he
      · rename_i hon
        split at he
        · rename_i e'' hs
          cases he
          cases h
          exact ⟨j, by simp, hon, hs⟩
        · cases he
      · cases he
    · rename_i u hu
      obtain ⟨k, hk, hon, hs⟩ := convertLanes_error f m ks h
      refine ⟨k, List.mem_cons_of_mem _ hk, hon, ?_⟩
      rw [← hs]
      refine (sample_congr k ?_).symm
      simp only [convertLane] at hu
      split at hu
      · split at hu
        · cases hu
        · cases hu; rfl
      · cases hu; rfl

/-- Every lane is in the list of all of them. -/
@[simp] theorem mem_all_lanes (k : Lane) : k ∈ Lane.all := by cases k <;> decide

/-- A format-C command is rejected, or is a fault of a selected lane, or writes the selected lanes and completes OK
(R139, R40). -/
theorem convertBuf_cases (f : Half → Word) (m : Mask) (s : State) :
    (s.stat.active = true ∧ convertBuf f m s = .next (reject s)) ∨
    (s.stat.active = false ∧ ∃ e k, m.on k = true ∧ sample k s = .error e ∧ convertBuf f m s = .fault e) ∨
    (s.stat.active = false ∧ ∃ res : Vector (Slot Word) 3,
      convertBuf f m s = .next (complete .ok { accept s with res := res }) ∧
      (∀ k, m.on k = true → ∃ raw, sample k s = .ok raw ∧ res[k.idx] = ⟨f raw, true⟩) ∧
      ∀ k, m.on k = false → res[k.idx] = s.res[k.idx]) := by
  cases ha : s.stat.active
  · right
    rw [convertBuf, onCommand_idle _ ha]
    cases hc : convertLanes f m Lane.all (accept s) with
    | error e =>
      obtain ⟨k, -, hon, hs⟩ := convertLanes_error f m _ hc
      exact .inl ⟨rfl, e, k, hon, by rw [← hs]; exact (sample_congr k rfl).symm, rfl⟩
    | ok t =>
      obtain ⟨ht, hin, hout⟩ := convertLanes_ok f m _ hc
      refine .inr ⟨rfl, t.res, by rw [ht], fun k hk => ?_, fun k hk => ?_⟩
      · obtain ⟨raw, hs, hr⟩ := hin k (mem_all_lanes k) hk
        exact ⟨raw, by rw [← hs]; exact (sample_congr k rfl).symm, hr⟩
      · simpa using hout k (.inr hk)
  · exact .inl ⟨rfl, onCommand_active _ ha⟩

/-- The bytes an answer stores and the code it completes with: all the bytes go with OK, and no byte is stored otherwise
(R66, R102, R103). -/
theorem answer_stored (a : Answer) (n : Nat) :
    (∃ bs, a = .data bs ∧ bs.length = n ∧ a.stored n = bs ∧ a.code n = .ok) ∨ a.stored n = [] := by
  cases a with
  | data bs =>
    by_cases h : bs.length = n
    · exact .inl ⟨bs, rfl, h, by simp [Answer.stored, h], by simp [Answer.code, h]⟩
    · exact .inr (by simp [Answer.stored, h])
  | ack => exact .inr rfl
  | busy => exact .inr rfl
  | timeout => exact .inr rfl
  | error => exact .inr rfl

/-- What the host can do in a step (R198). -/
theorem hostStep_cases {s t : State} (h : hostStep s = .next t) :
    (∃ index word, s.todo.head? = some (.write index word) ∧ index ≠ 0#3 ∧ t = advance s) ∨
    (∃ word, s.todo.head? = some (.write 0#3 word) ∧ exec (decode word) (advance s) = .next t) ∨
    (∃ index value, s.todo.head? = some (.read index) ∧ readReg index (advance s) = .ok value ∧
      t = see index value (advance s)) ∨
    (s.todo.head? = some .wait ∧ ∃ value, t = see 1#3 value (if s.stat.active then s else advance s)) := by
  unfold hostStep at h
  split at h
  · cases h
  · rename_i index word ops htodo
    by_cases hi : index = 0#3
    · subst hi
      exact .inr (.inl ⟨word, by simp [htodo], by simpa [hostWrite] using h⟩)
    · refine .inl ⟨index, word, by simp [htodo], hi, ?_⟩
      simpa [hostWrite, hi] using h.symm
  · rename_i index ops htodo
    unfold hostRead at h
    split at h
    · cases h
    · rename_i value hv
      cases h
      exact .inr (.inr (.inl ⟨index, value, by simp [htodo], hv, rfl⟩))
  · rename_i ops htodo
    unfold waitPoll hostRead at h
    split at h
    · cases h
    · rename_i value hv
      cases h
      exact .inr (.inr (.inr ⟨by simp [htodo], value, rfl⟩))

/-- What a step can do: one agent's step, and which (R198). -/
theorem step_cases {s t : State} (h : step s = .next t) :
    (chooseTurn s = some .host ∧ hostStep (tick s) = .next t) ∨
    (chooseTurn s = some .transport ∧ t = transportAnswer (tick s)) ∨
    (∃ k, chooseTurn s = some (.late k) ∧ t = lateAnswer k (tick s)) ∨
    (chooseTurn s = some .reset ∧ t = platformReset (tick s)) := by
  unfold step at h
  split at h
  · cases h
  · rename_i hc; exact .inl ⟨hc, h⟩
  · rename_i hc; cases h; exact .inr (.inl ⟨hc, rfl⟩)
  · rename_i k hc; cases h; exact .inr (.inr (.inl ⟨k, hc, rfl⟩))
  · rename_i hc; cases h; exact .inr (.inr (.inr ⟨hc, rfl⟩))

/-- The transport answers only a request in flight, the host moves only with an operation left, and a late answer is to a
request that was abandoned (R198, R190). -/
theorem chooseTurn_enabled {s : State} {u : Turn} (h : chooseTurn s = some u) : enabled u s = true := by
  have hd : ∀ v, defaultTurn s = some v → enabled v s = true := by
    intro v hv
    unfold defaultTurn at hv
    split at hv
    · rename_i hc
      cases hv
      simp only [Bool.and_eq_true] at hc
      exact hc.1
    · split at hv
      · rename_i hc; cases hv; exact hc
      · split at hv
        · rename_i hc
          cases hv
          cases ha : s.abandoned with
          | nil => simp [ha] at hc
          | cons r rs => simp [enabled, ha]
        · cases hv
  unfold chooseTurn at h
  split at h
  · split at h
    · rename_i he; cases h; exact he
    · exact hd u h
  · exact hd u h

end Sys2Proof.Machine
end

