-- ==== Sys2Proof/Laws/Exec.lean ====
section
/-!
SUPPORT. What a command can do to the state, said once for all commands (R41).
-/

namespace Sys2Proof.Machine

/-- The command a transaction instruction latches (R82, R87). -/
def latchOf : Instr → Option Latch
  | .rd len reg => some ⟨.rd, reg, len, 0x00#8⟩
  | .wr len reg wdata => some ⟨.wr, reg, len, wdata⟩
  | .ident => some .identify
  | .wake => some .wakeUp
  | .setacc2g => some .accelRange
  | .setgyr250 => some .gyroRange
  | .reserved0 => none
  | .reserved7 => none
  | .asm _ => none
  | .cvta _ => none
  | .cvtg _ => none
  | .cvtt _ => none
  | .asmi _ _ _ => none
  | .cvtai _ _ => none
  | .cvtgi _ _ => none
  | .cvtti _ _ => none

/-- A latched command of legal length is one the invariant allows. -/
theorem latchOf_legal {i : Instr} {l : Latch} (h : latchOf i = some l) (hl : l.op.lengthLegal l.len = true) :
    l.legal = true := by
  cases i <;> simp only [latchOf, Option.some.injEq, reduceCtorEq] at h <;> subst h <;>
    first
    | decide
    | simpa [Latch.legal] using hl

/-- What a command that answers a next state did: it was rejected; or it was a transaction that passed its checks and is now in
flight; or it completed in its accepting step, writing at most RES, and RES only where it is a conversion (R100, R41). -/
def CommandEffect (i : Instr) (s t : State) : Prop :=
  (s.stat.active = true ∧ t = reject s) ∨
  (s.stat.active = false ∧ s.params.bound = true ∧
    ∃ l, latchOf i = some l ∧ l.op.lengthLegal l.len = true ∧ t = issue l (accept s)) ∨
  (s.stat.active = false ∧ ∃ code res, t = complete code { accept s with res := res } ∧
    (res = s.res ∨ code = .ok ∧ latchOf i = none))

/-- Every command that answers a next state has one of the three effects. -/
theorem exec_cases {i : Instr} {s t : State} (h : exec i s = .next t) : CommandEffect i s t := by
  have tx : ∀ l, latchOf i = some l → transact l s = .next t → CommandEffect i s t := by
    intro l hl ht
    rcases transact_cases l s with ⟨ha, h'⟩ | ⟨ha, hb, hlen, h'⟩ | ⟨ha, -, h'⟩
    · cases h'.symm.trans ht
      exact .inl ⟨ha, rfl⟩
    · cases h'.symm.trans ht
      exact .inr (.inl ⟨ha, hb, l, hl, hlen, rfl⟩)
    · cases h'.symm.trans ht
      exact .inr (.inr ⟨ha, .transportError, s.res, rfl, .inl rfl⟩)
  have res : completeReserved s = .next t → CommandEffect i s t := by
    intro ht
    rcases completeReserved_cases s with ⟨ha, h'⟩ | ⟨ha, h'⟩
    · cases h'.symm.trans ht
      exact .inl ⟨ha, rfl⟩
    · cases h'.symm.trans ht
      exact .inr (.inr ⟨ha, .transportError, s.res, rfl, .inl rfl⟩)
  have buf : ∀ f m, latchOf i = none → convertBuf f m s = .next t → CommandEffect i s t := by
    intro f m hn ht
    rcases convertBuf_cases f m s with ⟨ha, h'⟩ | ⟨-, e, k, -, -, h'⟩ | ⟨ha, r, h', -, -⟩
    · cases h'.symm.trans ht
      exact .inl ⟨ha, rfl⟩
    · cases h'.symm.trans ht
    · cases h'.symm.trans ht
      exact .inr (.inr ⟨ha, .ok, r, rfl, .inr ⟨rfl, hn⟩⟩)
  have imm : ∀ f dst raw, latchOf i = none → convertImm f dst raw s = .next t → CommandEffect i s t := by
    intro f dst raw hn ht
    rcases convertImm_cases f dst raw s with ⟨ha, h'⟩ | ⟨ha, h'⟩
    · cases h'.symm.trans ht
      exact .inl ⟨ha, rfl⟩
    · cases h'.symm.trans ht
      refine .inr (.inr ⟨ha, .ok, (writeDst dst (f raw) (accept s)).res, ?_, .inr ⟨rfl, hn⟩⟩)
      cases dst <;> rfl
  cases i with
  | reserved0 => exact res h
  | rd len reg => exact tx _ rfl h
  | wr len reg wdata => exact tx _ rfl h
  | ident => exact tx _ rfl h
  | wake => exact tx _ rfl h
  | setacc2g => exact tx _ rfl h
  | setgyr250 => exact tx _ rfl h
  | reserved7 => exact res h
  | asm mask => exact buf _ _ rfl h
  | cvta mask => exact buf _ _ rfl h
  | cvtg mask => exact buf _ _ rfl h
  | cvtt mask0 => exact buf _ _ rfl h
  | asmi dst hi lo => exact imm _ _ _ rfl h
  | cvtai dst imm' => exact imm _ _ _ rfl h
  | cvtgi dst imm' => exact imm _ _ _ rfl h
  | cvtti dst imm' => exact imm _ _ _ rfl h

end Sys2Proof.Machine
end

