-- ==== Sys2Proof/Laws/PerInstr.lean ====
section
/-!
SUPPORT. The statements made of every instruction, one lemma for each constructor of Instr.
-/

namespace Sys2Proof.Laws.EncodingForm

open Sys2Proof.Machine (place)

/-- A command's encoding is matched by its own row of the opcode map and leaves that row's SBZ bits zero (R84, R85). -/
def Statement (i : Instr) : Prop := i.row.matches (encode i) = true ∧ encode i &&& i.row.sbz = 0#32

/-- The two parts, for a row whose mask selects OP. -/
theorem of_parts {i : Instr} (op : BitVec 4) (hm : i.row.mask = 0xF0000000#32) (hp : i.row.pattern = place 28 op)
    (hs : encode i &&& 0xF0000000#32 = place 28 op) (hz : encode i &&& i.row.sbz = 0#32) : Statement i := by
  refine ⟨?_, hz⟩
  rw [OpcodeRow.matches, hm, hs, hp]
  exact beq_self_eq_true _

theorem reserved0 : Statement .reserved0 :=
  ⟨by decide, by decide⟩

theorem rd (len : BitVec 3) (reg : Byte) : Statement (.rd len reg) :=
  of_parts 0x1#4 rfl rfl (formatT_select _ _ _ _) (formatT_sbz_read _ _ _)

theorem wr (len : BitVec 3) (reg wdata : Byte) : Statement (.wr len reg wdata) :=
  of_parts 0x2#4 rfl rfl (formatT_select _ _ _ _) (formatT_sbz _ _ _ _)

theorem ident : Statement .ident :=
  ⟨by decide, by decide⟩

theorem wake : Statement .wake :=
  ⟨by decide, by decide⟩

theorem setacc2g : Statement .setacc2g :=
  ⟨by decide, by decide⟩

theorem setgyr250 : Statement .setgyr250 :=
  ⟨by decide, by decide⟩

theorem reserved7 : Statement .reserved7 :=
  ⟨by decide, by decide⟩

theorem asm (mask : Mask) : Statement (.asm mask) :=
  of_parts 0x8#4 rfl rfl (formatC_select _ _) (formatC_sbz _ _)

theorem cvta (mask : Mask) : Statement (.cvta mask) :=
  of_parts 0x9#4 rfl rfl (formatC_select _ _) (formatC_sbz _ _)

theorem cvtg (mask : Mask) : Statement (.cvtg mask) :=
  of_parts 0xA#4 rfl rfl (formatC_select _ _) (formatC_sbz _ _)

theorem cvtt (mask0 : Bool) : Statement (.cvtt mask0) :=
  by cases mask0 <;> exact ⟨by decide, by decide⟩

theorem asmi (dst : Option Lane) (hi lo : Byte) : Statement (.asmi dst hi lo) :=
  of_parts 0xC#4 rfl rfl (formatI_select _ _ _) (formatI_sbz _ _ _)

theorem cvtai (dst : Option Lane) (imm : Half) : Statement (.cvtai dst imm) :=
  of_parts 0xD#4 rfl rfl (formatI_select _ _ _) (formatI_sbz _ _ _)

theorem cvtgi (dst : Option Lane) (imm : Half) : Statement (.cvtgi dst imm) :=
  of_parts 0xE#4 rfl rfl (formatI_select _ _ _) (formatI_sbz _ _ _)

theorem cvtti (dst : Option Lane) (imm : Half) : Statement (.cvtti dst imm) :=
  of_parts 0xF#4 rfl rfl (formatI_select _ _ _) (formatI_sbz _ _ _)

end Sys2Proof.Laws.EncodingForm
end

