-- ==== Sys2Proof/Laws/Run.lean ====
section
/-!
SUPPORT. A run of the machine, one step at a time, in the model's own names.
-/

namespace Sys2Proof.Machine

/-- A run of no step. -/
theorem run_zero (s : State) : core.run 0 s = .next s := rfl

/-- A run whose first step has a next state goes on from it. -/
theorem run_of_next {s t : State} (k : Nat) (h : step s = .next t) : core.run (k + 1) s = core.run k t := by
  have hs : core.step s = .next t := h
  simp [Host.Core.run, hs]

/-- A run whose first step is a fault stops with it. -/
theorem run_of_fault {s : State} {f : Fault} (k : Nat) (h : step s = .fault f) : core.run (k + 1) s = .fault f := by
  have hs : core.step s = .fault f := h
  simp [Host.Core.run, hs]

end Sys2Proof.Machine
end

