-- ==== Sys2Proof/Tests/Slice0.lean ====
section
/-!
SUPPORT. Tests of the model: words of 30_encoding.md R93 and vectors of 95_test_vectors.md, written out by hand from the spec,
the smoke test of WellFormed, and for every statement with hypotheses a witness that meets them.
-/

namespace Sys2Proof.Tests

open Sys2Proof.Machine Sys2Proof.Claims

/-- A view of the next state, where there is one. -/
def after {α : Type} (o : Out) (view : State → α) : Option α :=
  match o with
  | .next s => some (view s)
  | .fault _ => none
  | .refused _ => none

/-- The fault, where there is one. -/
def faultOf (o : Out) : Option Fault :=
  match o with
  | .next _ => none
  | .fault f => some f
  | .refused _ => none

/-- BUF with the first bytes written. -/
def bufOf (bytes : List Byte) : Vector (Slot Byte) 6 := (storeBuf bytes State.reset).buf

/-- BUF as 95_test_vectors.md writes it: a byte, or nothing where it is unwritten. -/
def bufList (s : State) : List (Option Byte) := s.buf.toList.map Slot.read?

/-- RES likewise. -/
def resList (s : State) : List (Option Word) := s.res.toList.map Slot.read?

/-- The state after a completed command whose BUF holds some bytes. -/
def holding (bytes : List Byte) : State :=
  { State.reset with stat := ⟨false, .ok, true, false⟩, buf := bufOf bytes }

/-- A transaction in flight with a chosen verdict (STAT = 0x01), BUF = 11 22 33 44 55 66. -/
def inFlightWith (l : Latch) (v : Verdict) : State :=
  { holding [0x11#8, 0x22#8, 0x33#8, 0x44#8, 0x55#8, 0x66#8] with
    stat := ⟨true, .ok, false, false⟩
    latch := l
    requests := [l.request launchParams]
    draws := [⟨0, v⟩] }

/-- RD 0x3B, 6 in flight. -/
def rdAccelLatch : Latch := ⟨.rd, 0x3B#8, 6#3, 0x00#8⟩

/-- WR 0x6B, 0x80 in flight. -/
def wrPowerLatch : Latch := ⟨.wr, 0x6B#8, 1#3, 0x80#8⟩

/-- The host's next operation, the host moving next. -/
def hostAt (op : HostOp) (s : State) : State := { s with todo := [op], turns := [.host] }

/-! ## WellFormed refuses ill-formed terms (R91) -/

theorem test_wf_rd_length_3 : (Instr.rd 3#3 0x3B#8).wellFormed = false := by decide
theorem test_wf_wr_length_2 : (Instr.wr 2#3 0x1C#8 0x00#8).wellFormed = false := by decide
theorem test_wf_reserved : Instr.reserved0.wellFormed = false ∧ Instr.reserved7.wellFormed = false := by decide
theorem test_wf_rd_length_6 : (Instr.rd 6#3 0x3B#8).wellFormed = true := by decide

/-! ## Decoding words written out from R82, R93 and V-ENC -/

theorem test_decode_reserved0 : decode 0x00000000#32 = .reserved0 := by decide
theorem test_decode_rd : decode 0x1C3B0000#32 = .rd 6#3 0x3B#8 := by decide
theorem test_decode_wr : decode 0x226B0080#32 = .wr 1#3 0x6B#8 0x80#8 := by decide
theorem test_decode_ident : decode 0x30000000#32 = .ident := by decide
theorem test_decode_wake : decode 0x40000000#32 = .wake := by decide
theorem test_decode_setacc2g : decode 0x50000000#32 = .setacc2g := by decide
theorem test_decode_setgyr250 : decode 0x60000000#32 = .setgyr250 := by decide
theorem test_decode_reserved7 : decode 0x70000000#32 = .reserved7 := by decide
theorem test_decode_asm : decode 0x82000000#32 = .asm ⟨false, true, false⟩ := by decide
theorem test_decode_cvta : decode 0x91000000#32 = .cvta ⟨true, false, false⟩ := by decide
theorem test_decode_cvtg : decode 0xA5000000#32 = .cvtg ⟨true, false, true⟩ := by decide
theorem test_decode_cvtt : decode 0xB1000000#32 = .cvtt true := by decide
theorem test_decode_asmi : decode 0xC3001234#32 = .asmi none 0x12#8 0x34#8 := by decide
theorem test_decode_cvtai : decode 0xD2004000#32 = .cvtai (some .z) 0x4000#16 := by decide
theorem test_decode_cvtgi : decode 0xE100FF7D#32 = .cvtgi (some .y) 0xFF7D#16 := by decide
theorem test_decode_cvtti : decode 0xF0008000#32 = .cvtti (some .x) 0x8000#16 := by decide
/-- R84: IDENT with every SBZ bit set is IDENT. -/
theorem test_decode_sbz_ignored : decode 0x3FFFFFFF#32 = .ident := by decide
/-- R84: CVTT ignores MASK[1] and MASK[2]. -/
theorem test_decode_cvtt_sbz : decode 0xB6000000#32 = .cvtt false := by decide
theorem test_table_word : decodeTableWord 32 0xA0000000 = some (.cvtg ⟨false, false, false⟩) := by decide
theorem test_encode_wr : encode (.wr 1#3 0x6B#8 0x80#8) = 0x226B0080#32 := by decide
theorem test_encode_cvtg : encode (.cvtg ⟨true, false, true⟩) = 0xA5000000#32 := by decide
theorem test_encode_cvtti : encode (.cvtti (some .z) 0xCF7A#16) = 0xF200CF7A#32 := by decide

/-! ## The assembler (R90 to R92) -/

theorem test_assemble_rd : (assemble "RD 0x3B, 6".toList).map encode = some 0x1C3B0000#32 := by decide
theorem test_assemble_negative : (assemble "CVTGI r1, -131 ; note".toList).map encode = some 0xE100FF7D#32 := by decide
theorem test_assemble_lanes : (assemble "CVTA xz".toList).map encode = some 0x95000000#32 := by decide
theorem test_assemble_refuses_length_3 : assemble "RD 0x3B, 3".toList = none := by decide
theorem test_assemble_refuses_lane_order : assemble "ASM zy".toList = none := by decide
theorem test_assemble_pseudo : assembleOp "RD.GYR".toList = some (.write 0#3 0x1C430000#32) := by decide
theorem test_assemble_wait : assembleOp "WAIT".toList = some .wait := by decide

/-! ## Arithmetic: V-RDIV, V-TEMP, V-GYRO, V-ACC -/

theorem test_rdiv_tie : rdiv 170 340 = 1 ∧ rdiv (-170) 340 = -1 ∧ rdiv (-169) 340 = 0 := by decide
theorem test_rdiv_odd : rdiv 65 131 = 0 ∧ rdiv (-66) 131 = -1 := by decide
theorem test_sat : sat 32768 = 32767 ∧ sat (-32768) = -32767 := by decide
theorem test_temp_negative : tempWord 0xCF7A#16 = 0xFFFFFFFF#32 := by decide
theorem test_temp_minimum : tempWord 0x8000#16 = 0xFFFFE89F#32 := by decide
theorem test_gyro_minimum : gyroWord 0x8000#16 = 0xFFFF9E4A#32 := by decide
theorem test_gyro_rounds_down : gyroWord 112#16 = 0x00000055#32 := by decide
theorem test_acc_minimum : accWord 0x8000#16 = 0xC0000000#32 := by decide
theorem test_acc_maximum : accWord 0x7FFF#16 = 0x3FFFFE00#32 := by decide

/-! ## Commands: V-CONV and V-TXN -/

/-- K1. -/
theorem test_asm : after (exec (.asm ⟨true, true, true⟩) (holding [0x40#8, 0x00#8, 0xC0#8, 0x00#8, 0x00#8, 0x01#8])) resList =
    some [some 0x00004000#32, some 0xFFFFC000#32, some 0x00000001#32] := by decide
/-- K8: only lane X is read after a 2-byte read. -/
theorem test_cvta_one_lane : after (exec (.cvta ⟨true, false, false⟩) (holding [0xF0#8, 0x00#8])) resList =
    some [some 0xBE800000#32, none, none] := by decide
/-- K9. -/
theorem test_cvta_unwritten_lane : faultOf (exec (.cvta ⟨true, true, true⟩) (holding [0xF0#8, 0x00#8])) =
    some (.unwrittenBuf 2) := by decide
/-- K5. -/
theorem test_cvtg : after (exec (.cvtg ⟨true, true, true⟩) (holding [0x00#8, 0x83#8, 0xFF#8, 0x7D#8, 0x00#8, 0x13#8])) resList =
    some [some 0x00000064#32, some 0xFFFFFF9C#32, some 0x0000000F#32] := by decide
/-- K7. -/
theorem test_cvtt : after (exec (.cvtt true) (holding [0xF0#8, 0x00#8])) (fun s => (s.stat.word, resList s)) =
    some (0x00000008#32, [some 0x00000990#32, none, none]) := by decide
/-- K10. -/
theorem test_cvtt_after_ident : faultOf (exec (.cvtt true) (holding [0x68#8])) = some (.unwrittenBuf 1) := by decide
/-- R147's example. -/
theorem test_asmi : after (exec (.asmi (some .x) 0xFF#8 0x85#8) State.reset) resList =
    some [some 0xFFFFFF85#32, none, none] := by decide
/-- S6. -/
theorem test_cvtai : after (exec (.cvtai (some .z) 16384#16) State.reset) resList =
    some [none, none, some 0x3F800000#32] := by decide
/-- S5. -/
theorem test_cvtgi : after (exec (.cvtgi (some .y) 0xFF7D#16) State.reset) resList =
    some [none, some 0xFFFFFF9C#32, none] := by decide
/-- S3. -/
theorem test_cvtti : after (exec (.cvtti (some .x) 0#16) State.reset) (fun s => (s.stat.word, resList s)) =
    some (0x00000008#32, [some 0x00000E45#32, none, none]) := by decide
/-- K12. -/
theorem test_cvtti_no_destination : after (exec (.cvtti none 0#16) State.reset) resList = some [none, none, none] := by decide
/-- P1 step 1. -/
theorem test_ident : after (exec .ident State.reset) (fun s => (s.stat.word, s.requests)) =
    some (0x00000001#32, [.read 0xD0#8 0x75#8 1 1]) := by decide
/-- P1 steps 4, 6, 8. -/
theorem test_wake : after (exec .wake State.reset) (fun s => s.requests) = some [.write 0xD0#8 0x6B#8 0x00#8 1] := by decide
theorem test_setacc2g : after (exec .setacc2g State.reset) (fun s => s.requests) = some [.write 0xD0#8 0x1C#8 0x00#8 1] := by
  decide
theorem test_setgyr250 : after (exec .setgyr250 State.reset) (fun s => s.requests) = some [.write 0xD0#8 0x1B#8 0x00#8 1] := by
  decide
/-- T19: the alternate strap. -/
theorem test_rd_strap69 :
    after (exec (.rd 6#3 0x3B#8) { State.reset with params := ⟨.strap69, 1, true⟩ }) (fun s => s.requests) =
      some [.read 0xD2#8 0x3B#8 6 1] := by decide
/-- T8. -/
theorem test_rd_illegal_length : after (exec (.rd 3#3 0x3B#8) State.reset) (fun s => (s.stat.word, s.requests)) =
    some (0x0000000E#32, []) := by decide
/-- T12. -/
theorem test_wr_illegal_length : after (exec (.wr 2#3 0x1C#8 0x00#8) State.reset) (fun s => (s.stat.word, s.requests)) =
    some (0x0000000E#32, []) := by decide
/-- T10. -/
theorem test_wr : after (exec (.wr 1#3 0x6B#8 0x80#8) State.reset) (fun s => (s.stat.word, s.requests)) =
    some (0x00000001#32, [.write 0xD0#8 0x6B#8 0x80#8 1]) := by decide
/-- T18. -/
theorem test_reserved : after (exec .reserved0 State.reset) (fun s => s.stat.word) = some 0x0000000E#32 ∧
    after (exec .reserved7 State.reset) (fun s => s.stat.word) = some 0x0000000E#32 := by decide
/-- T21: a command written while a RD is in flight. -/
theorem test_rejected : after (exec (.cvtti (some .x) 0#16) (inFlightWith rdAccelLatch (.served []))) (fun s => s.stat.word) =
    some 0x00000011#32 := by decide
/-- T2: a 2-byte read. -/
theorem test_read_two_bytes :
    after (step (inFlightWith ⟨.rd, 0x41#8, 2#3, 0x00#8⟩ (.served [0xF0#8, 0x00#8]))) (fun s => (s.stat.word, bufList s)) =
      some (0x00000008#32, [some 0xF0#8, some 0x00#8, some 0x33#8, some 0x44#8, some 0x55#8, some 0x66#8]) := by decide
/-- T6: a short read. -/
theorem test_read_short :
    after (step (inFlightWith ⟨.rd, 0x43#8, 6#3, 0x00#8⟩ (.served [0x00#8, 0x83#8, 0xFF#8]))) (fun s => (s.stat.word, bufList s)) =
      some (0x0000000E#32, [some 0x11#8, some 0x22#8, some 0x33#8, some 0x44#8, some 0x55#8, some 0x66#8]) := by decide
/-- T16. -/
theorem test_write_busy : after (step (inFlightWith .gyroRange (.failed .busy false))) (fun s => s.stat.word) =
    some 0x0000000A#32 := by decide
/-- T11: a failed write that landed all the same (R67). -/
theorem test_write_error_landed : after (step (inFlightWith wrPowerLatch (.failed .error true)))
    (fun s => (s.stat.word, s.sensor)) = some (0x0000000E#32, [(0x6B, 0x80#8)]) := by decide
/-- P2 step 6: BUFB. -/
theorem test_read_bufb : after (step (hostAt (.read 3#3) (holding [0x40#8, 0x00#8, 0xC0#8, 0x00#8, 0x00#8, 0x01#8])))
    (fun s => s.seen) = some [⟨3#3, 0x00010000#32⟩] := by decide
/-- The load of a command runs it, and the host's position advances (R24). -/
theorem test_with_fetch_word : after (step (State.reset.withFetchWord 32 0xF0000000)) (fun s => (s.pos, resList s)) =
    some (1, [some 0x00000E45#32, none, none]) := by decide
/-- P1: the identity byte through BUFA is exact; no other byte has been written. -/
theorem test_identity_byte : viewByte 0 (holding [0x68#8]) = 0x68#8 ∧
    (holding [0x68#8]).buf.toList.map Slot.written = [true, false, false, false, false, false] := by decide
/-- P1, last line: a host read of RES0 at the end of the bring-up is a model fault (R40). -/
theorem test_res0_after_bring_up_is_a_fault : faultOf (step (hostAt (.read 4#3) (holding [0x68#8]))) =
    some (.unwrittenRes 0) := by decide
theorem test_register_map : classify 0x40#8 = some .adata ∧ classify 0x41#8 = some .tdata ∧ classify 0x49#8 = none := by decide
/-- P1 as a host program pairs nothing, and its commands are the four of R193. -/
theorem test_bring_up_words : bringUp.filterMap (fun op => match op with
    | .write _ w => some w
    | .read _ => none
    | .wait => none) = [0x30000000#32, 0x40000000#32, 0x50000000#32, 0x60000000#32] := by decide

/-! ## Witnesses: for each statement with hypotheses, a state and operands that meet them all -/

theorem witness_AssemblerEmitsOnlyWellFormedCommands : ∃ i, assemble "RD 0x3B, 6".toList = some i := ⟨.rd 6#3 0x3B#8, by decide⟩

/-- A witness for each part: a command ignored, and one accepted while REJ = 1. -/
theorem witness_CommandWhileActiveIsIgnored : (inFlightWith rdAccelLatch (.served [])).stat.active = true ∧
    (let s : State := { State.reset with stat := ⟨false, .ok, true, true⟩ }
     s.stat.active = false ∧ ∃ t, exec .ident s = .next t) := ⟨by decide, by decide, _, rfl⟩

theorem witness_RdIssuesOneReadRequest : State.reset.stat.active = false ∧ State.reset.params.bound = true ∧
    ∀ len ∈ [1#3, 2#3, 6#3], len = 1#3 ∨ len = 2#3 ∨ len = 6#3 := by decide

theorem witness_WrIssuesOneWriteRequest : State.reset.stat.active = false ∧ State.reset.params.bound = true := by decide

theorem witness_FixedFunctionCommandsIssueTheirRequest :
    State.reset.stat.active = false ∧ State.reset.params.bound = true := by decide

theorem witness_IllegalLengthCompletesWithError : State.reset.stat.active = false ∧
    ∀ len ∈ [0#3, 3#3, 4#3, 5#3, 7#3], len ≠ 1#3 ∧ len ≠ 2#3 ∧ len ≠ 6#3 := by decide

theorem witness_UnboundTransportFailsEveryTransaction :
    ∀ i ∈ [Instr.rd 6#3 0x3B#8, .wr 1#3 0x6B#8 0x00#8, .ident, .wake, .setacc2g, .setgyr250], isTransaction i = true ∧
      ({ State.reset with params := ⟨.strap68, 1, false⟩ } : State).stat.active = false ∧
      ({ State.reset with params := ⟨.strap68, 1, false⟩ } : State).params.bound = false := by decide

theorem witness_ReservedCommandCompletesWithError : State.reset.stat.active = false ∧
    (inFlightWith rdAccelLatch (.served [])).stat.active = true := by decide

theorem witness_TransactionCommandFrame : isConversion .ident = false ∧ ∃ t, exec .ident State.reset = .next t :=
  ⟨by decide, _, rfl⟩

theorem witness_ConversionCommandFrame : isConversion (.cvtti (some .x) 0#16) = true ∧
    ∃ t, exec (.cvtti (some .x) 0#16) State.reset = .next t := ⟨by decide, _, rfl⟩

theorem witness_FullReadStoresEveryByte :
    let s := inFlightWith rdAccelLatch (.served [1#8, 2#8, 3#8, 4#8, 5#8, 6#8])
    chooseTurn s = some .transport ∧ s.latch.op.isRead = true ∧
      (nextDraw s).verdict = .served [1#8, 2#8, 3#8, 4#8, 5#8, 6#8] ∧ s.latch.len.toNat ≤ 6 := by decide

theorem witness_ShortReadIsAnError :
    let s := inFlightWith rdAccelLatch (.served [1#8, 2#8, 3#8, 4#8, 5#8])
    chooseTurn s = some .transport ∧ s.latch.op.isRead = true ∧
      (nextDraw s).verdict = .served [1#8, 2#8, 3#8, 4#8, 5#8] ∧ 5 < s.latch.len.toNat := by decide

theorem witness_FailedAnswerReportsItsKind : ∀ why ∈ [Failure.busy, .timeout, .error],
    let s := inFlightWith rdAccelLatch (.failed why false)
    chooseTurn s = some .transport ∧ (nextDraw s).verdict = .failed why false := by decide

theorem witness_AcknowledgedWriteReachesTheSensor :
    let s := inFlightWith wrPowerLatch (.served [])
    chooseTurn s = some .transport ∧ s.latch.op.isRead = false ∧ (nextDraw s).verdict = .served [] := by decide

theorem witness_FailedWriteLeavesOldOrNew : ∀ landed ∈ [false, true],
    let s := inFlightWith wrPowerLatch (.failed .timeout landed)
    chooseTurn s = some .transport ∧ s.latch.op.isRead = false ∧ (nextDraw s).verdict = .failed .timeout landed := by decide

theorem witness_TimedOutTransactionReportsTimeout :
    let s : State := { State.reset with draws := [⟨0, .failed .timeout false⟩] }
    isTransaction .ident = true ∧ s.stat.active = false ∧
      ∃ t, exec .ident s = .next t ∧ t.stat.active = true ∧ (nextDraw t).verdict = .failed .timeout false :=
  ⟨by decide, by decide, _, rfl, by decide, by decide⟩

theorem witness_AnswersAreTheAdmissibleOnes : ([1#8, 2#8] : List Byte).length ≤ 2 ∧ ([] : List Byte).length ≤ 0 := by decide

/-- For ASM, CVTA and CVTG: every lane selected, and lane X alone after a 2-byte read. -/
theorem witness_lanes_written :
    (holding [1#8, 2#8, 3#8, 4#8, 5#8, 6#8]).stat.active = false ∧
    (∀ k, (⟨true, true, true⟩ : Mask).on k = true → laneWritten (holding [1#8, 2#8, 3#8, 4#8, 5#8, 6#8]) k) ∧
    (∀ k, (⟨true, false, false⟩ : Mask).on k = true → laneWritten (holding [1#8, 2#8]) k) := by
  refine ⟨by decide, fun k _ => ?_, fun k hk => ?_⟩
  · cases k <;> exact ⟨by decide, by decide⟩
  · cases k
    · exact ⟨by decide, by decide⟩
    · cases hk
    · cases hk

theorem witness_CvttConvertsLaneX : (holding [0xF0#8, 0x00#8]).stat.active = false ∧ laneWritten (holding [0xF0#8, 0x00#8]) .x :=
  ⟨by decide, by decide, by decide⟩

theorem witness_ImmediateConversionsWriteTheirDestination : State.reset.stat.active = false := by decide

theorem witness_UnwrittenLaneIsAFault : (holding [0x68#8]).stat.active = false ∧
    ∃ k, (⟨true, false, false⟩ : Mask).on k = true ∧ ¬ laneWritten (holding [0x68#8]) k := by
  refine ⟨by decide, .x, by decide, ?_⟩
  rintro ⟨-, h⟩
  revert h
  decide

theorem witness_ConversionsDependOnBufAlone :
    let s := holding [0xF0#8, 0x00#8]
    let s' : State := { holding [0xF0#8, 0x00#8] with stat := ⟨false, .busy, true, true⟩, pos := 7 }
    isConversion (.cvtt true) = true ∧ s.stat.active = false ∧ s'.stat.active = false ∧ s.buf = s'.buf ∧
      ∃ t, exec (.cvtt true) s = .next t := ⟨by decide, by decide, by decide, rfl, _, rfl⟩

theorem witness_RdivRoundsAwayFromZero : (0 : Int) < 340 ∧ (0 : Int) < 131 := by decide

theorem witness_IntegerConversionsAreMonotoneAndOdd :
    (0x8000#16).toInt ≤ (0x7FFF#16).toInt ∧ (0x8001#16 : Half) ≠ 0x8000#16 := by decide

theorem witness_AccelerationIsExact : (0x8000#16 : Half) ≠ 0#16 ∧ (0x0001#16 : Half) ≠ 0#16 := by decide

theorem witness_BufferViewIsExactWhereWritten : ∀ i : Fin 6,
    (holding [1#8, 2#8, 3#8, 4#8, 5#8, 6#8]).buf[i].written = true := by decide

/-- The state of the read witnesses: every result register written. -/
def readable : State :=
  { holding [1#8, 2#8, 3#8, 4#8, 5#8, 6#8] with res := #v[⟨10#32, true⟩, ⟨11#32, true⟩, ⟨12#32, true⟩] }

/-- A witness for each index of the register map. -/
theorem witness_HostReadReturnsTheRegister : ∀ index : BitVec 3, ∃ value : Word,
    chooseTurn (hostAt (.read index) readable) = some .host ∧
    (hostAt (.read index) readable).todo.head? = some (.read index) ∧
    (index = 0#3 ∧ value = 0#32 ∨ index = 1#3 ∧ value = readable.stat.word ∨
     index = 2#3 ∧ value = bufaWord readable ∨ index = 3#3 ∧ value = bufbWord readable ∨
     index = 4#3 ∧ readable.res[0] = ⟨value, true⟩ ∨ index = 5#3 ∧ readable.res[1] = ⟨value, true⟩ ∨
     index = 6#3 ∧ readable.res[2] = ⟨value, true⟩ ∨ index = 7#3 ∧ value = 0#32) := by
  intro index
  match index with
  | 0#3 => exact ⟨0#32, rfl, rfl, by decide⟩
  | 1#3 => exact ⟨readable.stat.word, rfl, rfl, by decide⟩
  | 2#3 => exact ⟨bufaWord readable, rfl, rfl, by decide⟩
  | 3#3 => exact ⟨bufbWord readable, rfl, rfl, by decide⟩
  | 4#3 => exact ⟨10#32, rfl, rfl, by decide⟩
  | 5#3 => exact ⟨11#32, rfl, rfl, by decide⟩
  | 6#3 => exact ⟨12#32, rfl, rfl, by decide⟩
  | 7#3 => exact ⟨0#32, rfl, rfl, by decide⟩

theorem witness_UnwrittenResultReadIsAFault : ∀ k : Fin 3,
    let s := hostAt (.read (BitVec.ofNat 3 (4 + k.val))) State.reset
    chooseTurn s = some .host ∧ s.todo.head? = some (.read (BitVec.ofNat 3 (4 + k.val))) ∧ s.res[k].written = false := by decide

theorem witness_OtherHostWritesAreIgnored : ∀ index ∈ [1#3, 2#3, 3#3, 4#3, 5#3, 6#3, 7#3],
    let s := hostAt (.write index 0xF0000000#32) State.reset
    chooseTurn s = some .host ∧ s.todo.head? = some (.write index 0xF0000000#32) ∧ index ≠ 0#3 := by decide

/-- A witness for each clause: idle, and in flight. -/
theorem witness_WaitEndsWhenIdle :
    (let s := hostAt .wait State.reset
     chooseTurn s = some .host ∧ s.todo.head? = some .wait ∧ s.stat.active = false) ∧
    (let s := hostAt .wait (inFlightWith rdAccelLatch (.served []))
     chooseTurn s = some .host ∧ s.todo.head? = some .wait ∧ s.stat.active = true) := by decide

theorem witness_StepRunsTheDecodedCommand : hostWrites (State.reset.withFetchWord 32 0x30000000) 0x30000000#32 :=
  ⟨by decide, by decide⟩

theorem witness_WriteAndAnswerRaceBothWays :
    let s : State := { inFlightWith rdAccelLatch (.served []) with todo := [.write 0#3 0xB1000000#32] }
    s.stat.active = true ∧ s.todo = .write 0#3 0xB1000000#32 :: [] := by decide

theorem witness_EveryRequestIsAnswered : (inFlightWith rdAccelLatch (.served [])).stat.active = true := by decide

theorem witness_EndedRunHasNoStep : State.reset.final = true ∧ State.reset.abandoned = [] ∧ State.reset.turns = [] := by decide

theorem witness_PlatformResetAbandonsTheTransaction :
    chooseTurn { inFlightWith rdAccelLatch (.served []) with turns := [.reset] } = some .reset := by decide

theorem witness_LateAnswerIsDiscarded :
    let s : State := { State.reset with abandoned := [.read 0xD0#8 0x3B#8 6 1], turns := [.late 0] }
    chooseTurn s = some (.late 0) ∧ 0 < s.abandoned.length := by decide

/-- The invariant is met by a state with a transaction in flight, from which a step goes on. -/
theorem witness_StepKeepsTheInvariant :
    (inFlightWith rdAccelLatch (.served [])).Inv ∧ ∃ t, step (inFlightWith rdAccelLatch (.served [])) = .next t := by
  refine ⟨⟨by decide, by decide, by decide, by decide, by decide, by decide, by decide, by decide⟩, _, rfl⟩

theorem witness_RequestsComeOnlyFromAcceptedCommands :
    ∃ t, step (State.reset.withFetchWord 32 0x30000000) = .next t := ⟨_, rfl⟩

theorem witness_OnlyConversionsWriteResults : ∃ t, step (State.reset.withFetchWord 32 0xF0000000) = .next t ∧
    t.res[Lane.x.idx] ≠ (State.reset.withFetchWord 32 0xF0000000).res[Lane.x.idx] := ⟨_, rfl, by decide⟩

theorem witness_OnlySuccessfulReadsWriteTheBuffer :
    ∃ t, step (inFlightWith rdAccelLatch (.served [1#8, 2#8, 3#8, 4#8, 5#8, 6#8])) = .next t ∧
      t.buf ≠ (inFlightWith rdAccelLatch (.served [1#8, 2#8, 3#8, 4#8, 5#8, 6#8])).buf :=
  ⟨_, rfl, fun h => absurd (congrArg (fun b => b[0]) h) (by decide)⟩

/-- A witness for each way: the transport's answer, an accepting step, and a reset. -/
theorem witness_ResultIsWrittenOnlyAtCompletion :
    (∃ t, step (inFlightWith rdAccelLatch (.failed .busy false)) = .next t ∧
      t.stat.result ≠ (inFlightWith rdAccelLatch (.failed .busy false)).stat.result) ∧
    (∃ t, step (State.reset.withFetchWord 32 0x70000000) = .next t ∧
      t.stat.result ≠ (State.reset.withFetchWord 32 0x70000000).stat.result) ∧
    (let s : State := { State.reset with stat := ⟨false, .busy, true, false⟩, turns := [.reset] }
     ∃ t, step s = .next t ∧ t.stat.result ≠ s.stat.result) :=
  ⟨⟨_, rfl, by decide⟩, ⟨_, rfl, by decide⟩, _, rfl, by decide⟩

theorem witness_OnlyAnsweredWritesTouchTheSensor :
    ∃ t, step (inFlightWith wrPowerLatch (.served [])) = .next t ∧
      t.sensor.read? 0x6B ≠ (inFlightWith wrPowerLatch (.served [])).sensor.read? 0x6B := ⟨_, rfl, by decide⟩

theorem witness_ParametersAreFixedForARun : ∃ t, step (State.reset.withFetchWord 32 0x00000000) = .next t := ⟨_, rfl⟩

theorem witness_WaitingHostIsNeverRejected :
    waitsBeforeCommand (State.reset.withFetchWord 32 0x30000000) = true ∧
    (State.reset.withFetchWord 32 0x30000000).stat.rej = false ∧
    ∃ t, step (State.reset.withFetchWord 32 0x30000000) = .next t := ⟨by decide, by decide, _, rfl⟩

end Sys2Proof.Tests
end

section
/-!
PROOF. O57: no step changes the parameters of the run.
-/

namespace Sys2Proof.Machine

/-- A command that is answered leaves the parameters as they are (R10, R100). -/
theorem exec_params {i : Instr} {s t : State} (h : exec i s = .next t) : t.params = s.params := by
  rcases exec_cases h with ⟨-, rfl⟩ | ⟨-, -, l, -, -, rfl⟩ | ⟨-, code, res, rfl, -⟩
  · exact reject_params s
  · simp only [issue_params, accept_params]
  · simp only [complete_params, accept_params]

/-- The host's step leaves the parameters as they are (R10, R198). -/
theorem hostStep_params {s t : State} (h : hostStep s = .next t) : t.params = s.params := by
  rcases hostStep_cases h with ⟨_, _, -, -, rfl⟩ | ⟨word, -, hx⟩ | ⟨_, _, -, -, rfl⟩ | ⟨-, _, rfl⟩
  · exact advance_params s
  · exact (exec_params hx).trans (advance_params s)
  · simp only [see_params, advance_params]
  · cases s.stat.active <;> simp

/-- The transport's answer to the request in flight leaves the parameters as they are (R10, R102). -/
@[simp] theorem transportAnswer_params (s : State) : (transportAnswer s).params = s.params := by
  simp [transportAnswer, completeAnswer]

/-- A late answer leaves the parameters as they are (R10, R190). -/
@[simp] theorem lateAnswer_params (k : Nat) (s : State) : (lateAnswer k s).params = s.params := by
  unfold lateAnswer
  cases s.abandoned[k]? with
  | none => rfl
  | some r => exact settle_params r s

end Sys2Proof.Machine

open Sys2Proof.Machine

/-- Settles O57, by the cases of a step: whichever agent moves, its operations keep the parameters. -/
theorem parametersAreFixedForARun : Obligations.ParametersAreFixedForARun := by
  intro s t h
  rcases step_cases h with ⟨-, hh⟩ | ⟨-, rfl⟩ | ⟨k, -, rfl⟩ | ⟨-, rfl⟩
  · exact (hostStep_params hh).trans (tick_params s)
  · simp only [transportAnswer_params, tick_params]
  · simp only [lateAnswer_params, tick_params]
  · simp only [platformReset_params, tick_params]

end

section
/-!
PROOF. O50 and O51: the invariant of Safety.lean holds after reset, and every operation of every agent keeps it.
-/

namespace Sys2Proof.Machine

/-- The invariant speaks of seven fields, and of two of them by their lengths alone. -/
theorem State.Inv.congr {s t : State} (h : s.Inv) (hst : t.stat = s.stat) (hl : t.latch = s.latch)
    (hp : t.params = s.params) (hm : t.sensor.wf = true) (hr : t.requests = s.requests)
    (hn : t.answers.length + t.abandoned.length = s.answers.length + s.abandoned.length) : t.Inv := by
  have hf : inFlight t = inFlight s := by rw [inFlight, hl, hp, ← inFlight]
  exact
    { sensorCanonical := hm
      timeoutPositive := hp ▸ h.timeoutPositive
      activeBound := by rw [hst, hp]; exact h.activeBound
      activeNotDone := by rw [hst]; exact h.activeNotDone
      activeLatch := by rw [hst, hl]; exact h.activeLatch
      activeRequest := by rw [hst, hr, hf]; exact h.activeRequest
      idleFresh := by rw [hst]; exact h.idleFresh
      requestsCounted := by rw [hst, hr, hn]; exact h.requestsCounted }

/-- Using up a scheduling choice keeps the invariant (R198). -/
theorem State.Inv.tick {s : State} (h : s.Inv) : (tick s).Inv :=
  h.congr (tick_stat s) (tick_latch s) (tick_params s) (by simpa using h.sensorCanonical) (tick_requests s) (by simp)

/-- The host's position keeps the invariant (R24). -/
theorem State.Inv.advance {s : State} (h : s.Inv) : (advance s).Inv :=
  h.congr rfl rfl rfl h.sensorCanonical rfl rfl

/-- A host read keeps the invariant (R33). -/
theorem State.Inv.see {s : State} (h : s.Inv) (i : BitVec 3) (v : Word) : (see i v s).Inv :=
  h.congr rfl rfl rfl h.sensorCanonical rfl rfl

/-- Rejection keeps the invariant: it happens only while ACTIVE = 1, where nothing is said of REJ (R30). -/
theorem State.Inv.reject {s : State} (h : s.Inv) (ha : s.stat.active = true) : (reject s).Inv :=
  { h with
    idleFresh := fun hidle => by cases ha.symm.trans hidle }

/-- Issue keeps the invariant: the request made is the one in flight (R101). -/
theorem State.Inv.issue {s : State} (h : s.Inv) (ha : s.stat.active = false) (hb : s.params.bound = true) {l : Latch}
    (hl : l.legal = true) : (issue l (accept s)).Inv where
  sensorCanonical := h.sensorCanonical
  timeoutPositive := h.timeoutPositive
  activeBound _ := hb
  activeNotDone _ := rfl
  activeLatch _ := hl
  activeRequest _ := by simp [inFlight]
  idleFresh hidle := by cases hidle
  requestsCounted := by simp [h.requestsCounted, ha]

/-- A state with ACTIVE = 0 and DONE = 1 meets the invariant as soon as the clauses that hold in every state do (R27, R28). -/
theorem State.Inv.of_done {s : State} (hm : s.sensor.wf = true) (ht : 0 < s.params.timeout) (ha : s.stat.active = false)
    (hd : s.stat.done = true) (hn : s.requests.length = s.answers.length + s.abandoned.length) : s.Inv where
  sensorCanonical := hm
  timeoutPositive := ht
  activeBound hact := by cases ha.symm.trans hact
  activeNotDone hact := by cases ha.symm.trans hact
  activeLatch hact := by cases ha.symm.trans hact
  activeRequest hact := by cases ha.symm.trans hact
  idleFresh _ hnd := by cases hd.symm.trans hnd
  requestsCounted := by simp [ha, hn]

/-- A command that completes in its accepting step keeps the invariant (R41, R171). -/
theorem State.Inv.completeAccepted {s : State} (h : s.Inv) (ha : s.stat.active = false) (code : Result)
    (res : Vector (Slot Word) 3) : (complete code { accept s with res := res }).Inv :=
  .of_done h.sensorCanonical h.timeoutPositive ha rfl (by simpa [ha] using h.requestsCounted)

/-- A command keeps the invariant (R100). -/
theorem exec_inv {i : Instr} {s t : State} (hs : s.Inv) (h : exec i s = .next t) : t.Inv := by
  rcases exec_cases h with ⟨ha, rfl⟩ | ⟨ha, hb, l, hl, hlen, rfl⟩ | ⟨ha, code, res, rfl, -⟩
  · exact hs.reject ha
  · exact hs.issue ha hb (latchOf_legal hl hlen)
  · exact hs.completeAccepted ha code res

/-- The host's step keeps the invariant (R198). -/
theorem hostStep_inv {s t : State} (hs : s.Inv) (h : hostStep s = .next t) : t.Inv := by
  rcases hostStep_cases h with ⟨_, _, -, -, rfl⟩ | ⟨word, -, hx⟩ | ⟨i, v, -, -, rfl⟩ | ⟨-, v, rfl⟩
  · exact hs.advance
  · exact exec_inv hs.advance hx
  · exact hs.advance.see i v
  · split
    · exact hs.see _ v
    · exact hs.advance.see _ v

/-- An answered request leaves the sensor's memory canonical: a write's address is a byte (R50, R67). -/
theorem sensorEffect_wf (v : Verdict) (r : Request) {m : Memory} (h : m.wf = true) : (sensorEffect v r m).wf = true := by
  cases r with
  | read => exact h
  | write d reg w timeout =>
    rw [sensorEffect]
    split
    · exact Memory.write_wf w reg.isLt m h
    · exact h

/-- The transport's answer keeps the invariant: the request in flight becomes an answered one (R102). -/
theorem State.Inv.transportAnswer {s : State} (h : s.Inv) (ha : s.stat.active = true) : (transportAnswer s).Inv := by
  have hn := h.requestsCounted
  refine .of_done (sensorEffect_wf _ _ h.sensorCanonical) h.timeoutPositive rfl rfl ?_
  simp only [ha, if_true] at hn
  simp [Machine.transportAnswer, completeAnswer, hn]
  omega

/-- A late answer keeps the invariant: an abandoned request becomes an answered one (R190). -/
theorem State.Inv.lateAnswer {s : State} (h : s.Inv) (k : Nat) : (lateAnswer k s).Inv := by
  unfold Machine.lateAnswer
  split
  · rename_i r hr
    have hk : k < s.abandoned.length := (List.getElem?_eq_some_iff.1 hr).1
    refine h.congr rfl rfl rfl (sensorEffect_wf _ _ h.sensorCanonical) rfl ?_
    simp [List.length_eraseIdx, hk]
    omega
  · exact h

/-- The platform's reset keeps the invariant: a request in flight becomes an abandoned one (R190). -/
theorem State.Inv.platformReset {s : State} (h : s.Inv) : (platformReset s).Inv where
  sensorCanonical := h.sensorCanonical
  timeoutPositive := h.timeoutPositive
  activeBound hact := by cases hact
  activeNotDone hact := by cases hact
  activeLatch hact := by cases hact
  activeRequest hact := by cases hact
  idleFresh _ _ := rfl
  requestsCounted := by
    have hn := h.requestsCounted
    cases ha : s.stat.active <;> simp [ha, Stat.reset] at hn ⊢ <;> omega

end Sys2Proof.Machine

open Sys2Proof.Machine

/-- Settles O50, by the cases of a step: each agent's operation keeps the invariant; the transport moves only while ACTIVE = 1. -/
theorem stepKeepsTheInvariant : Obligations.StepKeepsTheInvariant := by
  intro s t hs h
  rcases step_cases h with ⟨-, hh⟩ | ⟨hc, rfl⟩ | ⟨k, -, rfl⟩ | ⟨-, rfl⟩
  · exact hostStep_inv hs.tick hh
  · exact hs.tick.transportAnswer ((congrArg Stat.active (tick_stat s)).trans (chooseTurn_enabled hc))
  · exact hs.tick.lateAnswer k
  · exact hs.tick.platformReset

/-- Settles O51: at reset nothing is in flight and no request has been made. -/
theorem resetMeetsTheInvariant : Obligations.ResetMeetsTheInvariant where
  sensorCanonical := rfl
  timeoutPositive := Nat.one_pos
  activeBound hact := by cases hact
  activeNotDone hact := by cases hact
  activeLatch hact := by cases hact
  activeRequest hact := by cases hact
  idleFresh _ _ := rfl
  requestsCounted := rfl

end

section
/-!
PROOF. The common form of the commands, and from it O6, O13, O14: a command in flight is ignored, and the frames.
-/

namespace Sys2Proof.Machine

open Sys2Proof.Claims

/-- A command that is no conversion is a transaction or a reserved one (R17, R86). -/
theorem exec_transaction_form {i : Instr} (hi : isConversion i = false) :
    (∃ l, exec i = transact l) ∨ exec i = completeReserved := by
  cases i with
  | reserved0 | reserved7 => exact .inr rfl
  | rd | wr | ident | wake | setacc2g | setgyr250 => exact .inl ⟨_, rfl⟩
  | asm | cvta | cvtg | cvtt | asmi | cvtai | cvtgi | cvtti => cases hi

/-- A conversion command converts lanes of BUF under a mask, or an immediate sample for a destination; the mask or the
destination says which lanes of RES it writes (R139, R146). -/
theorem exec_conversion_form {i : Instr} (hi : isConversion i = true) :
    (∃ f m, (∀ k, writesLane i k = m.on k) ∧ exec i = convertBuf f m) ∨
    ∃ f dst raw, (∀ k, writesLane i k = (dst == some k)) ∧ exec i = convertImm f dst raw := by
  cases i with
  | reserved0 | reserved7 | rd | wr | ident | wake | setacc2g | setgyr250 => cases hi
  | asm | cvta | cvtg => exact .inl ⟨_, _, fun _ => rfl, rfl⟩
  | cvtt m0 => exact .inl ⟨_, ⟨m0, false, false⟩, fun k => by cases k <;> simp [writesLane, Mask.on], rfl⟩
  | asmi | cvtai | cvtgi | cvtti => exact .inr ⟨_, _, _, fun _ => rfl, rfl⟩

/-- Every command is ignored with REJ = 1 while a transaction is in flight (R30). -/
theorem exec_active (i : Instr) {s : State} (h : s.stat.active = true) : exec i s = .next (reject s) := by
  cases hi : isConversion i with
  | false =>
    rcases exec_transaction_form hi with ⟨l, he⟩ | he
    · rw [he, transact, onCommand_active _ h]
    · rw [he, completeReserved, onCommand_active _ h]
  | true =>
    rcases exec_conversion_form hi with ⟨f, m, -, he⟩ | ⟨f, dst, raw, -, he⟩
    · rw [he, convertBuf, onCommand_active _ h]
    · rw [he, convertImm, onCommand_active _ h]

/-- A command that is no conversion is rejected, is issued, or completes TRANSPORT_ERROR in its accepting step (R86, R100). -/
theorem exec_transaction_cases {i : Instr} {s t : State} (hi : isConversion i = false) (h : exec i s = .next t) :
    (s.stat.active = true ∧ t = reject s) ∨
    (s.stat.active = false ∧ ∃ l, t = issue l (accept s)) ∨
    (s.stat.active = false ∧ t = complete .transportError (accept s)) := by
  rcases exec_transaction_form hi with ⟨l, he⟩ | he <;> rw [he] at h
  · rcases transact_cases l s with ⟨ha, hx⟩ | ⟨ha, -, -, hx⟩ | ⟨ha, -, hx⟩ <;> cases hx.symm.trans h
    · exact .inl ⟨ha, rfl⟩
    · exact .inr (.inl ⟨ha, l, rfl⟩)
    · exact .inr (.inr ⟨ha, rfl⟩)
  · rcases completeReserved_cases s with ⟨ha, hx⟩ | ⟨ha, hx⟩ <;> cases hx.symm.trans h
    · exact .inl ⟨ha, rfl⟩
    · exact .inr (.inr ⟨ha, rfl⟩)

/-- A conversion command that answers a next state is rejected, or completes OK in its accepting step and writes no lane of RES
that it does not select (R130, R139). -/
theorem exec_conversion_cases {i : Instr} {s t : State} (hi : isConversion i = true) (h : exec i s = .next t) :
    (s.stat.active = true ∧ t = reject s) ∨
    (s.stat.active = false ∧ ∃ res : Vector (Slot Word) 3, t = complete .ok { accept s with res := res } ∧
      ∀ k : Lane, writesLane i k = false → res[k.idx] = s.res[k.idx]) := by
  rcases exec_conversion_form hi with ⟨f, m, hw, he⟩ | ⟨f, dst, raw, hw, he⟩ <;> rw [he] at h
  · rcases convertBuf_cases f m s with ⟨ha, hx⟩ | ⟨-, e, k, -, -, hx⟩ | ⟨ha, res, hx, -, hout⟩ <;> cases hx.symm.trans h
    · exact .inl ⟨ha, rfl⟩
    · exact .inr ⟨ha, res, rfl, fun k hk => hout k ((hw k).symm.trans hk)⟩
  · rcases convertImm_cases f dst raw s with ⟨ha, hx⟩ | ⟨ha, hx⟩ <;> cases hx.symm.trans h
    · exact .inl ⟨ha, rfl⟩
    · cases dst with
      | none => exact .inr ⟨ha, s.res, rfl, fun _ _ => rfl⟩
      | some j =>
        refine .inr ⟨ha, _, rfl, fun k hk => writeRes_other k j (f raw) (accept s) ?_⟩
        rintro rfl
        simp [hw] at hk

end Sys2Proof.Machine

open Sys2Proof.Machine Sys2Proof.Claims

/-- Settles O6: while ACTIVE = 1 every command is a rejection, and each of the two effects of an accepted one keeps the REJ = 0 of
its acceptance. -/
theorem commandWhileActiveIsIgnored : Obligations.CommandWhileActiveIsIgnored := by
  refine ⟨fun i s ha => exec_active i ha, fun i s t ha h => ?_⟩
  rcases exec_cases h with ⟨ha', -⟩ | ⟨-, -, l, -, -, rfl⟩ | ⟨-, code, res, rfl, -⟩
  · cases ha.symm.trans ha'
  · rfl
  · rfl

/-- Settles O13, by the three effects of a command that is no conversion: DONE tells a completion from an issue. -/
theorem transactionCommandFrame : Obligations.TransactionCommandFrame := by
  intro i s t hi h
  rcases exec_transaction_cases hi h with ⟨ha, rfl⟩ | ⟨ha, l, rfl⟩ | ⟨ha, rfl⟩
  · simp [ha]
  · simp
  · simp [ha]

/-- Settles O14, by the two effects of a conversion command. -/
theorem conversionCommandFrame : Obligations.ConversionCommandFrame := by
  intro i s t hi h
  rcases exec_conversion_cases hi h with ⟨-, rfl⟩ | ⟨-, res, rfl, hout⟩
  · simp
  · simpa using hout

end

section
/-!
PROOF. O37, O38, O39, O40, O41 and O47: the host's register port, and what it reads after reset.
-/

namespace Sys2Proof.Machine

/-- The four fields of a word whose bytes are placed one beside the other, high byte first (R34). -/
theorem extract_placed_bytes (a b c d : Byte) :
    (place 24 a ||| place 16 b ||| place 8 c ||| place 0 d).extractLsb' 24 8 = a ∧
    (place 24 a ||| place 16 b ||| place 8 c ||| place 0 d).extractLsb' 16 8 = b ∧
    (place 24 a ||| place 16 b ||| place 8 c ||| place 0 d).extractLsb' 8 8 = c ∧
    (place 24 a ||| place 16 b ||| place 8 c ||| place 0 d).extractLsb' 0 8 = d := by
  refine ⟨?_, ?_, ?_, ?_⟩ <;> ext i hi <;> simp [place] <;> grind

/-- The fields of the status word, and the zero bits above them (R26). -/
theorem Stat.word_fields (t : Stat) :
    t.word.getLsbD 0 = t.active ∧ t.word.extractLsb' 1 2 = t.result.code ∧ t.word.getLsbD 3 = t.done ∧
    t.word.getLsbD 4 = t.rej ∧ t.word.extractLsb' 5 27 = 0#27 := by
  refine ⟨by simp [Stat.word, place], ?_, by simp [Stat.word, place], by simp [Stat.word, place], ?_⟩ <;>
    ext i hi <;> simp [Stat.word, place]
  · grind
  · refine ⟨⟨?_, ?_⟩, ?_⟩
    · omega
    · omega
    · intro _ _
      exact BitVec.getLsbD_of_ge _ _ (by omega)

/-- A written cell is read as what it holds (R40). -/
theorem Slot.read?_written {α : Type} {c : Slot α} (h : c.written = true) : c.read? = some c.value := if_pos h

/-- An unwritten cell is read as nothing (R40). -/
theorem Slot.read?_unwritten {α : Type} {c : Slot α} (h : c.written = false) : c.read? = none :=
  if_neg (Bool.eq_false_iff.1 h)

/-- A written byte of BUF is seen as it is (R40). -/
theorem viewByte_written {i : Fin 6} {s : State} (h : s.buf[i].written = true) : viewByte i s = s.buf[i].value := by
  rw [viewByte, Slot.read?_written h]

/-- BUFB is the two last bytes of BUF over a zero half-word (R34). -/
theorem bufbWord_fields (s : State) :
    (bufbWord s).extractLsb' 24 8 = viewByte 4 s ∧ (bufbWord s).extractLsb' 16 8 = viewByte 5 s ∧
    (bufbWord s).extractLsb' 0 16 = 0#16 := by
  rw [bufbWord]
  refine ⟨?_, ?_, ?_⟩ <;> ext i hi <;> simp [place] <;> grind

/-- The host's moving on changes no register it reads (R32). -/
theorem readReg_advance_tick (index : BitVec 3) (s : State) : readReg index (advance (tick s)) = readReg index s := by
  simp [readReg, readRes, bufaWord, bufbWord, viewByte]

/-- A written result register reads as its word (R40). -/
theorem readRes_written {k : Fin 3} {s : State} {w : Word} (h : s.res[k] = ⟨w, true⟩) : readRes k s = .ok w := by
  rw [readRes, h, Slot.read?_written rfl]

/-- An unwritten result register is the fault that names it (R40, R197). -/
theorem readRes_unwritten {k : Fin 3} {s : State} (h : s.res[k].written = false) :
    readRes k s = .error (.unwrittenRes k) := by
  rw [readRes, Slot.read?_unwritten h]

/-- Where the host moves, the step is the host's (R198). -/
theorem step_host {s : State} (h : chooseTurn s = some .host) : step s = hostStep (tick s) := by
  simp [step, h]

/-- The host's step on a read (R33). -/
theorem hostStep_read {s : State} {index : BitVec 3} (h : s.todo.head? = some (.read index)) :
    hostStep s = hostRead index (advance s) := by
  obtain ⟨ops, htodo⟩ := List.head?_eq_some_iff.1 h
  rw [hostStep, htodo]

/-- The host's step on a write (R33). -/
theorem hostStep_write {s : State} {index : BitVec 3} {word : Word} (h : s.todo.head? = some (.write index word)) :
    hostStep s = hostWrite index word (advance s) := by
  obtain ⟨ops, htodo⟩ := List.head?_eq_some_iff.1 h
  rw [hostStep, htodo]

/-- A step that is a host read sees the register as it stands before the step (R33). -/
theorem step_read_ok {s : State} {index : BitVec 3} {value : Word} (hc : chooseTurn s = some .host)
    (h : s.todo.head? = some (.read index)) (hv : readReg index s = .ok value) :
    step s = .next (see index value (advance (tick s))) := by
  rw [step_host hc, hostStep_read (by simpa using h), hostRead, readReg_advance_tick, hv]

/-- A step that is a host read of a register that cannot be read is that register's fault (R40). -/
theorem step_read_error {s : State} {index : BitVec 3} {e : Fault} (hc : chooseTurn s = some .host)
    (h : s.todo.head? = some (.read index)) (hv : readReg index s = .error e) : step s = .fault e := by
  rw [step_host hc, hostStep_read (by simpa using h), hostRead, readReg_advance_tick, hv]

end Sys2Proof.Machine

open Sys2Proof.Machine

/-- Settles O37, field by field; the result's two bits are its code. -/
theorem statusWordLayout : Obligations.StatusWordLayout := by
  intro t
  obtain ⟨hactive, hresult, hdone, hrej, hzero⟩ := Stat.word_fields t
  refine ⟨hactive, ?_, hdone, hrej, hzero⟩
  rw [hresult]
  cases t.result <;> rfl

/-- Settles O38: a written byte's lane of BUFA or BUFB is that byte. -/
theorem bufferViewIsExactWhereWritten : Obligations.BufferViewIsExactWhereWritten := by
  intro s
  obtain ⟨h0, h1, h2, h3⟩ := extract_placed_bytes (viewByte 0 s) (viewByte 1 s) (viewByte 2 s) (viewByte 3 s)
  obtain ⟨h4, h5, hz⟩ := bufbWord_fields s
  exact ⟨fun h => h0.trans (viewByte_written h), fun h => h1.trans (viewByte_written h),
    fun h => h2.trans (viewByte_written h), fun h => h3.trans (viewByte_written h),
    fun h => h4.trans (viewByte_written h), fun h => h5.trans (viewByte_written h), hz⟩

/-- Settles O39: the step keeps every field of the block, so it reads what the map gives in the state before it. -/
theorem hostReadReturnsTheRegister : Obligations.HostReadReturnsTheRegister := by
  intro s index value hc htodo hmap
  have hv : readReg index s = .ok value := by
    rcases hmap with ⟨rfl, rfl⟩ | ⟨rfl, rfl⟩ | ⟨rfl, rfl⟩ | ⟨rfl, rfl⟩ | ⟨rfl, h⟩ | ⟨rfl, h⟩ | ⟨rfl, h⟩ | ⟨rfl, rfl⟩
    · rfl
    · rfl
    · rfl
    · rfl
    · exact readRes_written (k := 0) h
    · exact readRes_written (k := 1) h
    · exact readRes_written (k := 2) h
    · rfl
  refine ⟨see index value (advance (tick s)), step_read_ok hc htodo hv, ?_⟩
  simp

/-- Settles O40: index 4 + k is RES[k]. -/
theorem unwrittenResultReadIsAFault : Obligations.UnwrittenResultReadIsAFault := by
  intro s k hc htodo hk
  have hv : readReg (BitVec.ofNat 3 (4 + k.val)) s = readRes k s := by
    fin_cases k <;> rfl
  exact step_read_error hc htodo (hv.trans (readRes_unwritten hk))

/-- Settles O41: an index other than 0 is ignored, and what is left of the step is the host's position. -/
theorem otherHostWritesAreIgnored : Obligations.OtherHostWritesAreIgnored := by
  intro s index word hc htodo hi
  rw [step_host hc, hostStep_write (by simpa using htodo), hostWrite, if_neg hi]
  simp [advance]

/-- Settles O47: every field is the reset value that R39 and R195 give it. -/
theorem resetLeavesStatusClear : Obligations.ResetLeavesStatusClear :=
  ⟨by decide, by decide, by decide, rfl, rfl⟩

end

section
/-!
PROOF. O28: a conversion that selects a lane with an unwritten byte is a fault, the same one whatever it computes.
-/

namespace Sys2Proof.Machine

open Sys2Proof.Claims

/-- A lane with an unwritten byte is sampled as the fault that names such a byte (R40). -/
theorem sample_unwritten {k : Lane} {s : State} (h : ¬ laneWritten s k) :
    ∃ i, s.buf[i].written = false ∧ (i = hiByte k ∨ i = loByte k) ∧ sample k s = .error (.unwrittenBuf i) := by
  rw [sample_eq]
  cases hhi : s.buf[hiByte k].written with
  | false => exact ⟨hiByte k, hhi, .inl rfl, rfl⟩
  | true =>
    have hlo : s.buf[loByte k].written = false := Bool.eq_false_iff.2 fun hlo => h ⟨hhi, hlo⟩
    exact ⟨loByte k, hlo, .inr rfl, by rw [hlo]; rfl⟩

/-- A lane that is written, or not selected, is converted without a fault, and BUF is kept (R139). -/
theorem convertLane_written (f : Half → Word) {m : Mask} {k : Lane} {s : State}
    (h : m.on k = true → laneWritten s k) : ∃ u, convertLane f m k s = .ok u ∧ u.buf = s.buf := by
  rw [convertLane]
  split
  · rename_i hon
    obtain ⟨hhi, hlo⟩ := h hon
    rw [sample_eq, if_pos hhi, if_pos hlo]
    exact ⟨_, rfl, rfl⟩
  · exact ⟨s, rfl, rfl⟩

/-- Of lanes among which a selected one has an unwritten byte, the conversion is a fault that BUF and the mask alone decide
(R40; log 16). -/
theorem convertLanes_unwritten {m : Mask} {s : State} : ∀ {ks : List Lane},
    (∃ k ∈ ks, m.on k = true ∧ ¬ laneWritten s k) →
    ∃ i, s.buf[i].written = false ∧ (∃ k, m.on k = true ∧ (i = hiByte k ∨ i = loByte k)) ∧
      ∀ (f : Half → Word) (u : State), u.buf = s.buf → convertLanes f m ks u = .error (.unwrittenBuf i)
  | [], h => by simp at h
  | j :: ks, h => by
    by_cases hj : m.on j = true ∧ ¬ laneWritten s j
    · obtain ⟨hon, hw⟩ := hj
      obtain ⟨i, hi, hij, hs⟩ := sample_unwritten hw
      refine ⟨i, hi, ⟨j, hon, hij⟩, fun f u hu => ?_⟩
      rw [convertLanes, convertLane, if_pos hon, sample_congr j hu, hs]
    · have hrest : ∃ k ∈ ks, m.on k = true ∧ ¬ laneWritten s k := by
        obtain ⟨k, hk, hsel⟩ := h
        rcases List.mem_cons.1 hk with rfl | hk
        · exact absurd hsel hj
        · exact ⟨k, hk, hsel⟩
      obtain ⟨i, hi, hij, hall⟩ := convertLanes_unwritten hrest
      refine ⟨i, hi, hij, fun f u hu => ?_⟩
      have hw : m.on j = true → laneWritten u j := fun hon => by
        simpa [laneWritten, hu] using not_not.1 fun hw => hj ⟨hon, hw⟩
      obtain ⟨v, hv, hvb⟩ := convertLane_written f hw
      rw [convertLanes, hv]
      exact hall f v (hvb.trans hu)

/-- A format-C command over such lanes is that fault, whatever it computes (R40, R143). -/
theorem convertBuf_unwritten {m : Mask} {s : State} (ha : s.stat.active = false)
    (h : ∃ k, m.on k = true ∧ ¬ laneWritten s k) :
    ∃ i, s.buf[i].written = false ∧ (∃ k, m.on k = true ∧ (i = hiByte k ∨ i = loByte k)) ∧
      ∀ f : Half → Word, convertBuf f m s = .fault (.unwrittenBuf i) := by
  obtain ⟨k, hsel⟩ := h
  obtain ⟨i, hi, hij, hall⟩ := convertLanes_unwritten ⟨k, mem_all_lanes k, hsel⟩
  exact ⟨i, hi, hij, fun f => by rw [convertBuf, onCommand_idle _ ha, hall f (accept s) rfl]⟩

end Sys2Proof.Machine

open Sys2Proof.Machine

/-- Settles O28: the four commands differ in the word they compute alone, and CVTT is the one whose mask has no lane Y or Z. -/
theorem unwrittenLaneIsAFault : Obligations.UnwrittenLaneIsAFault := by
  intro m s ha h
  obtain ⟨i, hi, hij, hfault⟩ := convertBuf_unwritten ha h
  refine ⟨i, hi, hij, hfault asmWord, hfault accWord, hfault gyroWord, fun hy hz => ?_⟩
  obtain ⟨x, y, z⟩ := m
  subst hy hz
  exact hfault tempWord

end

section
/-!
PROOF. O53 and O55: which steps write RES, and which write RESULT.
-/

namespace Sys2Proof.Machine

open Sys2Proof.Claims

/-- The host's step is a CMD write, or keeps STAT and RES (R33, R198). -/
theorem hostStep_command_or_keeps {s t : State} (h : hostStep s = .next t) :
    (∃ w, s.todo.head? = some (.write 0#3 w) ∧ exec (decode w) (advance s) = .next t) ∨
    t.stat = s.stat ∧ t.res = s.res := by
  rcases hostStep_cases h with ⟨_, _, -, -, rfl⟩ | hw | ⟨_, _, -, -, rfl⟩ | ⟨-, _, rfl⟩
  · exact .inr ⟨rfl, rfl⟩
  · exact .inl hw
  · exact .inr ⟨rfl, rfl⟩
  · cases s.stat.active <;> exact .inr ⟨rfl, rfl⟩

/-- A late answer keeps STAT and RES (R190). -/
theorem lateAnswer_stat_res (k : Nat) (s : State) :
    (lateAnswer k s).stat = s.stat ∧ (lateAnswer k s).res = s.res := by
  unfold lateAnswer
  split <;> exact ⟨rfl, rfl⟩

/-- A step is a CMD write, the transport's answer, a reset, or keeps STAT and RES (R198). -/
theorem step_writes_or_keeps {s t : State} (h : step s = .next t) :
    (∃ w, hostWrites s w ∧ exec (decode w) (advance (tick s)) = .next t) ∨
    (chooseTurn s = some .transport ∧ t = transportAnswer (tick s)) ∨
    chooseTurn s = some .reset ∨
    t.stat = s.stat ∧ t.res = s.res := by
  rcases step_cases h with ⟨hc, hh⟩ | ht | ⟨k, -, rfl⟩ | ⟨hc, -⟩
  · rcases hostStep_command_or_keeps hh with ⟨w, hw, hx⟩ | hkeep
    · exact .inl ⟨w, ⟨hc, by simpa using hw⟩, hx⟩
    · exact .inr (.inr (.inr (by simpa using hkeep)))
  · exact .inr (.inl ht)
  · exact .inr (.inr (.inr (by simpa using lateAnswer_stat_res k (tick s))))
  · exact .inr (.inr (.inl hc))

/-- The transport's answer writes no result register (R102). -/
theorem transportAnswer_res (s : State) : (transportAnswer s).res = s.res := rfl

/-- A command that changes a lane of RES was accepted and selects that lane (R23, R139). -/
theorem exec_writes_selected_lane {i : Instr} {s t : State} {k : Lane} (h : exec i s = .next t)
    (hne : t.res[k.idx] ≠ s.res[k.idx]) : writesLane i k = true ∧ s.stat.active = false := by
  cases hi : isConversion i with
  | false => rcases exec_transaction_cases hi h with ⟨-, rfl⟩ | ⟨-, l, rfl⟩ | ⟨-, rfl⟩ <;> exact absurd rfl hne
  | true =>
    rcases exec_conversion_cases hi h with ⟨-, rfl⟩ | ⟨ha, res, rfl, hout⟩
    · exact absurd rfl hne
    · exact ⟨by simpa using mt (hout k) hne, ha⟩

/-- A command that changes RESULT was accepted and completed (R29, R171). -/
theorem exec_result_completes {i : Instr} {s t : State} (h : exec i s = .next t)
    (hne : t.stat.result ≠ s.stat.result) :
    s.stat.active = false ∧ t.stat.done = true ∧ t.stat.active = false := by
  rcases exec_cases h with ⟨-, rfl⟩ | ⟨-, -, l, -, -, rfl⟩ | ⟨ha, code, res, rfl, -⟩
  · exact absurd rfl hne
  · exact absurd rfl hne
  · exact ⟨ha, rfl, ha⟩

end Sys2Proof.Machine

open Sys2Proof.Machine

/-- Settles O53: of the steps that do not keep RES, the transport's answer writes none of it, and a CMD write only a lane that an
accepted conversion selects. -/
theorem onlyConversionsWriteResults : Obligations.OnlyConversionsWriteResults := by
  intro s t k h hne
  rcases step_writes_or_keeps h with ⟨w, hw, hx⟩ | ⟨-, rfl⟩ | hc | ⟨-, hres⟩
  · obtain ⟨hlane, hidle⟩ := exec_writes_selected_lane (k := k) hx (by simpa using hne)
    exact .inr ⟨w, hw, hlane, by simpa using hidle⟩
  · rw [transportAnswer_res, tick_res] at hne
    exact absurd rfl hne
  · exact .inl hc
  · rw [hres] at hne
    exact absurd rfl hne

/-- Settles O55: of the steps that do not keep STAT, the transport's answer completes the request in flight, and a CMD write that
changes RESULT completes the command it accepts. -/
theorem resultIsWrittenOnlyAtCompletion : Obligations.ResultIsWrittenOnlyAtCompletion := by
  intro s t h hne
  rcases step_writes_or_keeps h with ⟨w, hw, hx⟩ | ⟨hc, rfl⟩ | hc | ⟨hstat, -⟩
  · obtain ⟨hidle, hdone, hact⟩ := exec_result_completes hx (by simpa using hne)
    exact .inr ⟨.inr ⟨by simpa using hidle, w, hw⟩, hdone, hact⟩
  · exact .inr ⟨.inl ⟨hc, chooseTurn_enabled hc⟩, rfl, rfl⟩
  · exact .inl hc
  · exact absurd (congrArg Stat.result hstat) hne

end

section
/-!
PROOF. O22, O56, O18, O19 and O20: the transport's answer to a request, and what it leaves in the sensor.
-/

namespace Sys2Proof.Machine

/-- The three failures are the three failing answers (R64). -/
theorem failureAnswer_cases (why : Failure) :
    failureAnswer why = .busy ∨ failureAnswer why = .timeout ∨ failureAnswer why = .error := by
  cases why with
  | busy => exact .inl rfl
  | timeout => exact .inr (.inl rfl)
  | error => exact .inr (.inr rfl)

/-- A failed request gets its failure for an answer, be it a read or a write (R64). -/
@[simp] theorem answerOf_failed (why : Failure) (landed : Bool) (r : Request) :
    answerOf (.failed why landed) r = failureAnswer why := by
  cases r <;> rfl

/-- A write of the byte that the write before it put at the same address changes nothing. -/
theorem Memory.write_write_same (a : Nat) (v : Byte) :
    ∀ m : Memory, Memory.write (Memory.write m a v) a v = Memory.write m a v
  | [] => by simp [Memory.write]
  | (b, w) :: m => by
    rcases Nat.lt_trichotomy a b with hlt | rfl | hgt
    · simp [Memory.write, hlt]
    · simp [Memory.write]
    · simp [Memory.write, Nat.not_lt.2 hgt.le, hgt.ne', Memory.write_write_same a v m]

/-- At its own register an answered write leaves the byte where it landed, and the old content otherwise (R67). -/
theorem sensorEffect_read_same (v : Verdict) (d reg w : Byte) (timeout : Nat) (m : Memory) :
    (sensorEffect v (.write d reg w timeout) m).read? reg.toNat =
      if lands v then some w else m.read? reg.toNat := by
  simp only [sensorEffect]
  split
  · exact Memory.read_write_same _ w m
  · rfl

/-- An answered write leaves every other register alone (R67). -/
theorem sensorEffect_read_other (v : Verdict) (d w : Byte) {reg : Byte} (timeout : Nat) (m : Memory) {a : Nat}
    (h : a ≠ reg.toNat) : (sensorEffect v (.write d reg w timeout) m).read? a = m.read? a := by
  simp only [sensorEffect]
  split
  · exact Memory.read_write_other w h m
  · rfl

/-- A register that an answered request changes is the register of a write, and holds the byte of that write (R67, R68). -/
theorem sensorEffect_changed {v : Verdict} {r : Request} {m : Memory} {a : Nat}
    (h : (sensorEffect v r m).read? a ≠ m.read? a) :
    ∃ d reg w timeout, r = .write d reg w timeout ∧ a = reg.toNat ∧ (sensorEffect v r m).read? a = some w := by
  cases r with
  | read d reg n timeout => exact absurd rfl h
  | write d reg w timeout =>
    have ha : a = reg.toNat := by
      by_contra hne
      exact h (sensorEffect_read_other v d w timeout m hne)
    subst ha
    rw [sensorEffect_read_same] at h ⊢
    split at h
    · rename_i hl
      exact ⟨d, reg, w, timeout, rfl, rfl, if_pos hl⟩
    · exact absurd rfl h

/-- A request answered twice with the same verdict leaves the sensor as one answer does (R68). -/
theorem sensorEffect_idem (v : Verdict) (r : Request) (m : Memory) :
    sensorEffect v r (sensorEffect v r m) = sensorEffect v r m := by
  cases r with
  | read d reg n timeout => rfl
  | write d reg w timeout =>
    simp only [sensorEffect]
    split
    · exact Memory.write_write_same _ w m
    · rfl

/-- The status after the transport's answer (R102). -/
theorem transportAnswer_stat (s : State) : (transportAnswer s).stat =
    ⟨false, (answerOf (nextDraw s).verdict (inFlight s)).code s.latch.len.toNat, true, s.stat.rej⟩ := rfl

/-- BUF after the transport's answer (R102, R103). -/
theorem transportAnswer_buf (s : State) : (transportAnswer s).buf =
    (storeBuf ((answerOf (nextDraw s).verdict (inFlight s)).stored s.latch.len.toNat) s).buf := rfl

/-- The sensor after the transport's answer (R67). -/
theorem transportAnswer_sensor (s : State) :
    (transportAnswer s).sensor = sensorEffect (nextDraw s).verdict (inFlight s) s.sensor := rfl

/-- The transport's answer is recorded with the request in flight (R64). -/
theorem transportAnswer_answers (s : State) : (transportAnswer s).answers =
    s.answers ++ [(inFlight s, answerOf (nextDraw s).verdict (inFlight s))] := rfl

/-- Where the transport moves, the step is its answer (R198). -/
theorem step_transport {s : State} (h : chooseTurn s = some .transport) :
    step s = .next (transportAnswer (tick s)) := by
  simp [step, h]

/-- The request in flight of a command that writes (R63, R87). -/
theorem inFlight_write {s : State} (h : s.latch.op.isRead = false) :
    inFlight s = .write (dev8 s.params) s.latch.reg s.latch.wdata s.params.timeout := by
  simp [inFlight, Latch.request, h]

/-- After the answer to a write the sensor holds the byte at LATCH.reg where the write landed, and its old content everywhere
else (R67). -/
theorem transportAnswer_write_sensor {s : State} (h : s.latch.op.isRead = false) :
    (transportAnswer s).sensor.read? s.latch.reg.toNat =
      (if lands (nextDraw s).verdict then some s.latch.wdata else s.sensor.read? s.latch.reg.toNat) ∧
    ∀ a, a ≠ s.latch.reg.toNat → (transportAnswer s).sensor.read? a = s.sensor.read? a := by
  rw [transportAnswer_sensor, inFlight_write h]
  exact ⟨sensorEffect_read_same .., fun a ha => sensorEffect_read_other _ _ _ _ _ ha⟩

/-- A command leaves the sensor as it is: only an answer reaches it (R36). -/
theorem exec_sensor {i : Instr} {s t : State} (h : exec i s = .next t) : t.sensor = s.sensor := by
  rcases exec_cases h with ⟨-, rfl⟩ | ⟨-, -, l, -, -, rfl⟩ | ⟨-, code, res, rfl, -⟩ <;> rfl

/-- The host's step leaves the sensor as it is (R36). -/
theorem hostStep_sensor {s t : State} (h : hostStep s = .next t) : t.sensor = s.sensor := by
  rcases hostStep_cases h with ⟨_, _, -, -, rfl⟩ | ⟨word, -, hx⟩ | ⟨_, _, -, -, rfl⟩ | ⟨-, _, rfl⟩
  · rfl
  · exact (exec_sensor hx).trans (advance_sensor s)
  · rfl
  · split <;> rfl

/-- A late answer is to no request and changes nothing, or has the effect of its request's answer on the sensor and is recorded
with it (R190). -/
theorem lateAnswer_sensor_cases (k : Nat) (s : State) :
    (lateAnswer k s).sensor = s.sensor ∨
    ∃ r v, (lateAnswer k s).sensor = sensorEffect v r s.sensor ∧
      (lateAnswer k s).answers = s.answers ++ [(r, answerOf v r)] := by
  unfold lateAnswer
  split
  · exact .inr ⟨_, _, rfl, rfl⟩
  · exact .inl rfl

/-- A step leaves the sensor as it is, or answers a request and has that answer's effect on it (R67, R36). -/
theorem step_sensor_cases {s t : State} (h : step s = .next t) :
    t.sensor = s.sensor ∨
    ∃ r v, t.sensor = sensorEffect v r s.sensor ∧ t.answers = s.answers ++ [(r, answerOf v r)] := by
  rcases step_cases h with ⟨-, hh⟩ | ⟨-, rfl⟩ | ⟨k, -, rfl⟩ | ⟨-, rfl⟩
  · exact .inl ((hostStep_sensor hh).trans (tick_sensor s))
  · rw [transportAnswer_sensor, transportAnswer_answers, tick_sensor, tick_answers]
    exact .inr ⟨_, _, rfl, rfl⟩
  · simpa using lateAnswer_sensor_cases k (tick s)
  · exact .inl (tick_sensor s)

end Sys2Proof.Machine

open Sys2Proof.Machine

/-- Settles O22: a served request gets its own kind of answer and a failed one its failure; bytes that are few enough are the
answer of the verdict that serves them. -/
theorem answersAreTheAdmissibleOnes : Obligations.AnswersAreTheAdmissibleOnes := by
  refine ⟨?read, ?write, ?data, fun _ _ _ _ => ⟨.served [], rfl⟩, fun r => ?failures⟩
  case read =>
    rintro v d reg n timeout a rfl
    cases v with
    | served bytes => exact .inl ⟨bytes.take n, rfl, List.length_take_le n bytes⟩
    | failed why landed => exact .inr (failureAnswer_cases why)
  case write =>
    rintro v d reg w timeout a rfl
    cases v with
    | served bytes => exact .inl rfl
    | failed why landed => exact .inr (failureAnswer_cases why)
  case data =>
    intro d reg n timeout bs hlen
    exact ⟨.served bs, congrArg Answer.data (List.take_of_length_le hlen)⟩
  case failures =>
    exact ⟨⟨.failed .busy false, answerOf_failed ..⟩, ⟨.failed .timeout false, answerOf_failed ..⟩,
      ⟨.failed .error false, answerOf_failed ..⟩⟩

/-- Settles O56: a step that does not keep the sensor has the effect of the answer it records, and only a write's answer changes
a register, its own. -/
theorem onlyAnsweredWritesTouchTheSensor : Obligations.OnlyAnsweredWritesTouchTheSensor := by
  intro s t a h hne
  rcases step_sensor_cases h with hkeep | ⟨r, v, hsensor, hans⟩
  · exact absurd (congrArg (Memory.read? · a) hkeep) hne
  · rw [hsensor] at hne ⊢
    obtain ⟨d, reg, w, timeout, rfl, ha, hw⟩ := sensorEffect_changed hne
    exact ⟨d, reg, w, timeout, _, ha, hans, hw⟩

/-- Settles O18: a served write lands, and its acknowledgement completes OK and stores no byte. -/
theorem acknowledgedWriteReachesTheSensor : Obligations.AcknowledgedWriteReachesTheSensor := by
  intro s bytes hc hop hv
  have hop' : (tick s).latch.op.isRead = false := by simpa using hop
  have hans : answerOf (nextDraw (tick s)).verdict (inFlight (tick s)) = .ack := by
    rw [nextDraw_tick, hv, inFlight_write hop']
    rfl
  obtain ⟨hsame, hother⟩ := transportAnswer_write_sensor hop'
  refine ⟨_, step_transport hc, ?_, ?_, ?_, ?_, ?_⟩
  · rw [transportAnswer_stat, hans]
    simp [Answer.code]
  · rw [transportAnswer_buf, hans]
    simp [Answer.stored]
  · simp [transportAnswer_res]
  · simpa [hv, lands] using hsame
  · simpa using hother

/-- Settles O19: whether a failed write lands is the draw's word. -/
theorem failedWriteLeavesOldOrNew : Obligations.FailedWriteLeavesOldOrNew := by
  intro s why landed hc hop hv
  have hop' : (tick s).latch.op.isRead = false := by simpa using hop
  refine ⟨_, step_transport hc, ?_⟩
  simpa [hv, lands] using transportAnswer_write_sensor hop'

/-- Settles O20: WAKE's request is one whose second answer changes nothing. -/
theorem wakeTwiceIsWakeOnce : Obligations.WakeTwiceIsWakeOnce :=
  fun v p m => sensorEffect_idem v (Latch.wakeUp.request p) m

end

section
/-!
PROOF. O45: a request in flight is answered or abandoned within a bound. The measure is what the outside choices and the
transport's patience leave for the other agents; every step with ACTIVE = 1 before and after makes it smaller.
-/

namespace Sys2Proof.Machine

/-- How many steps of other agents can still come before the transport must answer (R64, R198; log 6). -/
def State.waitBound (s : State) : Nat := s.turns.length + s.patience

/-- Using up a scheduling choice leaves one less, where there is one (R198). -/
theorem tick_waitBound {s : State} (h : s.waitBound ≠ 0) : (tick s).waitBound < s.waitBound := by
  unfold State.waitBound tick at *
  split
  · rename_i ht
    simp [ht]
  · rename_i ht
    simp only [ht, List.length_nil, Nat.zero_add] at h ⊢
    omega

/-- While a request is in flight, the transport moves by default once its patience is over or the host has ended, and the host
before (R64). -/
theorem defaultTurn_active {s : State} (h : s.stat.active = true) :
    defaultTurn s = some .transport ∨ defaultTurn s = some .host ∧ s.patience ≠ 0 := by
  unfold defaultTurn
  cases htodo : s.todo with
  | nil => simp [h]
  | cons op ops => by_cases hp : s.patience = 0 <;> simp [h, hp]

/-- While a request is in flight some agent moves, and where it is not the transport, a choice is left to use up (R198). -/
theorem chooseTurn_active {s : State} (h : s.stat.active = true) :
    ∃ u, chooseTurn s = some u ∧ (u = .transport ∨ s.waitBound ≠ 0) := by
  unfold chooseTurn State.waitBound
  cases hturns : s.turns with
  | nil =>
    rcases defaultTurn_active h with hd | ⟨hd, hp⟩
    · exact ⟨_, hd, .inl rfl⟩
    · exact ⟨_, hd, .inr (by simpa using hp)⟩
  | cons u us =>
    have hne : (u :: us).length + s.patience ≠ 0 := by simp
    by_cases hu : enabled u s = true
    · exact ⟨u, if_pos hu, .inr hne⟩
    · rcases defaultTurn_active h with hd | ⟨hd, -⟩ <;> exact ⟨_, (if_neg hu).trans hd, .inr hne⟩

/-- Reading a host register fails only where it is a result register that nothing has written (R40). -/
theorem readReg_cases (index : BitVec 3) (s : State) :
    (∃ value, readReg index s = .ok value) ∨ ∃ k, readReg index s = .error (.unwrittenRes k) := by
  have hres : ∀ k, (∃ w, readRes k s = .ok w) ∨ ∃ j, readRes k s = .error (.unwrittenRes j) := by
    intro k
    unfold readRes
    split
    · exact .inl ⟨_, rfl⟩
    · exact .inr ⟨k, rfl⟩
  unfold readReg
  split
  case h_5 => exact hres 0
  case h_6 => exact hres 1
  case h_7 => exact hres 2
  all_goals exact .inl ⟨_, rfl⟩

/-- What the wait for an answer allows of a step from `s`: it goes on with the request in flight and the choices that `s` leaves,
or a host read of an unwritten result register stops the run (R40, R64). -/
def KeepsWaiting (s : State) (o : Out) : Prop :=
  (∃ t, o = .next t ∧ t.stat.active = true ∧ t.waitBound = s.waitBound) ∨ ∃ i, o = .fault (.unwrittenRes i)

/-- A host read keeps waiting (R33, R40). -/
theorem hostRead_keepsWaiting (index : BitVec 3) {s : State} (h : s.stat.active = true) :
    KeepsWaiting s (hostRead index s) := by
  unfold hostRead
  rcases readReg_cases index s with ⟨value, hv⟩ | ⟨k, hk⟩
  · exact .inl ⟨see index value s, by rw [hv], h, rfl⟩
  · exact .inr ⟨k, by rw [hk]⟩

/-- The host's step keeps waiting: a command is rejected, and nothing else the host does touches STAT or the choices (R30, R33). -/
theorem hostStep_keepsWaiting {s : State} (h : s.stat.active = true) (htodo : s.todo ≠ []) :
    KeepsWaiting s (hostStep s) := by
  have hadv : (advance s).stat.active = true := h
  unfold hostStep
  split
  · rename_i hnil
    exact absurd hnil htodo
  · rename_i index word _ _
    unfold hostWrite
    split
    · exact .inl ⟨reject (advance s), exec_active _ hadv, h, rfl⟩
    · exact .inl ⟨advance s, rfl, h, rfl⟩
  · exact hostRead_keepsWaiting _ hadv
  · rw [waitPoll, if_pos h]
    exact hostRead_keepsWaiting _ h

/-- A late answer leaves the choices as they are (R190). -/
theorem lateAnswer_waitBound (k : Nat) (s : State) : (lateAnswer k s).waitBound = s.waitBound := by
  unfold lateAnswer
  split <;> rfl

/-- A step while a request is in flight ends the flight, stops at a host read of an unwritten result register, or goes on with
fewer choices left (R64, R198). -/
theorem step_active_cases {s : State} (h : s.stat.active = true) :
    (∃ t, step s = .next t ∧ t.stat.active = false) ∨
    (∃ i, step s = .fault (.unwrittenRes i)) ∨
    ∃ t, step s = .next t ∧ t.stat.active = true ∧ t.waitBound < s.waitBound := by
  have htick : (tick s).stat.active = true := by simpa using h
  obtain ⟨u, hc, hu⟩ := chooseTurn_active h
  have hlt : u ≠ .transport → (tick s).waitBound < s.waitBound := fun hne => tick_waitBound (hu.resolve_left hne)
  cases u with
  | transport => exact .inl ⟨_, step_transport hc, rfl⟩
  | reset => exact .inl ⟨platformReset (tick s), by simp [step, hc], rfl⟩
  | late k =>
    refine .inr (.inr ⟨lateAnswer k (tick s), by simp [step, hc], ?_, ?_⟩)
    · rw [(lateAnswer_stat_res k (tick s)).1, htick]
    · exact lateAnswer_waitBound k (tick s) ▸ hlt (by simp)
  | host =>
    have htodo : (tick s).todo ≠ [] := by simpa [enabled] using chooseTurn_enabled hc
    rw [step_host hc]
    rcases hostStep_keepsWaiting htick htodo with ⟨t, hx, hact, hw⟩ | hfault
    · exact .inr (.inr ⟨t, hx, hact, hw ▸ hlt (by simp)⟩)
    · exact .inr (.inl hfault)

/-- The bound on the wait (R64, R198), by recursion on the choices left. -/
theorem run_ends_flight (s : State) (h : s.stat.active = true) :
    ∃ k, k ≤ s.waitBound + 1 ∧
      ((∃ t : State, core.run k s = .next t ∧ t.stat.active = false) ∨
       ∃ i, core.run k s = .fault (.unwrittenRes i)) := by
  rcases step_active_cases h with ⟨t, hx, hidle⟩ | ⟨i, hx⟩ | ⟨t, hx, hact, hlt⟩
  · exact ⟨1, by omega, .inl ⟨t, (run_of_next 0 hx).trans (run_zero t), hidle⟩⟩
  · exact ⟨1, by omega, .inr ⟨i, run_of_fault 0 hx⟩⟩
  · obtain ⟨k, hk, hend⟩ := run_ends_flight t hact
    exact ⟨k + 1, by omega, by rwa [run_of_next k hx]⟩
termination_by s.waitBound

end Sys2Proof.Machine

open Sys2Proof.Machine

/-- Settles O45: the bound is the number of choices left, and one step for the answer. -/
theorem everyRequestIsAnswered : Obligations.EveryRequestIsAnswered :=
  fun s h => run_ends_flight s h

end

section
/-!
PROOF. O59 and O60: the framing of the device address, and the address decoder.
-/

namespace Sys2Proof.Machine

/-- A block contains the addresses from its start up to its length (R51). -/
theorem Block.contains_iff (b : Block) (a : Byte) :
    b.contains a = true ↔ b.start.toNat ≤ a.toNat ∧ a.toNat < b.start.toNat + b.length.toNat := by
  simp [Block.contains]

/-- Every block is in the map. -/
theorem Block.mem_all (b : Block) : b ∈ Block.all := by cases b <;> decide

/-- Of two different blocks one ends before the other starts (R51). -/
theorem Block.separate (b c : Block) : b = c ∨
    b.start.toNat + b.length.toNat ≤ c.start.toNat ∨ c.start.toNat + c.length.toNat ≤ b.start.toNat := by
  cases b <;> cases c <;> decide

/-- An address lies in one block at most (R52). -/
theorem Block.contains_unique {b c : Block} {a : Byte} (hb : b.contains a = true) (hc : c.contains a = true) : b = c := by
  rw [Block.contains_iff] at hb hc
  rcases Block.separate b c with heq | hbc | hcb
  · exact heq
  · omega
  · omega

/-- An address in a block is decoded to it, whatever the order of the map (R52). -/
theorem classify_of_contains {b : Block} {a : Byte} (h : b.contains a = true) : classify a = some b := by
  unfold classify
  cases hc : Block.all.find? (·.contains a) with
  | none => exact absurd h (List.find?_eq_none.1 hc b (Block.mem_all b))
  | some c =>
    have hca : c.contains a = true := by simpa using List.find?_some hc
    rw [Block.contains_unique hca h]

/-- An address in no block is unmapped (R52). -/
theorem classify_of_not_contains {a : Byte} (h : ∀ b : Block, ¬ b.contains a = true) : classify a = none :=
  List.find?_eq_none.2 fun b _ => h b

/-- The framed byte is twice the device address (R63, R65). -/
theorem dev8_toNat (p : Params) : (dev8 p).toNat = 2 * p.devAddr.bits.toNat := by
  rw [dev8]
  cases p.devAddr <;> decide

end Sys2Proof.Machine

open Sys2Proof Sys2Proof.Machine

/-- Settles O59: doubling gives the two framed bytes. -/
theorem deviceAddressIsFramed : Obligations.DeviceAddressIsFramed :=
  ⟨dev8_toNat, fun _ _ => ⟨rfl, BitVec.eq_of_toNat_eq (dev8_toNat _), rfl, BitVec.eq_of_toNat_eq (dev8_toNat _)⟩⟩

/-- Settles O60: each line of the map says that the address lies in its block, and the last one that it lies in none. -/
theorem addressDecoderMap : Obligations.AddressDecoderMap := by
  intro a
  split_ifs with hid hpwr hacfg hgcfg hadata htdata hgdata
  · exact classify_of_contains (hid ▸ rfl)
  · exact classify_of_contains (hpwr ▸ rfl)
  · exact classify_of_contains (hacfg ▸ rfl)
  · exact classify_of_contains (hgcfg ▸ rfl)
  · exact classify_of_contains ((Block.contains_iff .adata a).2 ⟨hadata.1, Nat.lt_succ_of_le hadata.2⟩)
  · rcases htdata with rfl | rfl <;> exact classify_of_contains rfl
  · exact classify_of_contains ((Block.contains_iff .gdata a).2 ⟨hgdata.1, Nat.lt_succ_of_le hgdata.2⟩)
  · refine classify_of_not_contains fun b hb => ?_
    rw [Block.contains_iff] at hb
    cases b <;> simp [Block.start, Block.length] at hb <;> bv_omega

end

section
/-!
PROOF. O1, O2, O3 and O4: the decoder and the encoder are inverse up to the SBZ bits, and the opcode map is the decoder's.
-/

namespace Sys2Proof.Laws

open Sys2Proof.Machine (place)

/-- OP alone decides the row of the command (R81, R85). -/
theorem decode_op (w : Word) : (decode w).op = (opField w).toFin := by
  unfold decode
  obtain ⟨op⟩ := opField w
  fin_cases op <;> rfl

/-- A word has the OP of a row exactly if it decodes to a command of that row (R85, R89). -/
theorem opField_eq_iff (w : Word) (k : Fin 16) : opField w = BitVec.ofFin k ↔ (decode w).op = k := by
  rw [decode_op]
  exact ⟨fun h => h ▸ rfl, fun h => h ▸ rfl⟩

/-- Decoding an encoded command reads back every operand (R82, R83). -/
theorem decode_encode (i : Instr) : decode (encode i) = i := by
  cases i with
  | reserved0 | ident | wake | setacc2g | setgyr250 | reserved7 => simp [encode, decode, formatT_op]
  | rd len reg => simp [encode, decode, formatT_op, formatT_len, formatT_reg]
  | wr len reg wdata => simp [encode, decode, formatT_op, formatT_len, formatT_reg, formatT_wdata]
  | asm mask | cvta mask | cvtg mask => simp [encode, decode, formatC_op, formatC_mask]
  | cvtt mask0 =>
    have hx := congrArg Mask.x (formatC_mask 0xB#4 ⟨mask0, false, false⟩)
    simpa [encode, decode, formatC_op, maskField] using hx
  | asmi dst hi lo => simp [encode, decode, formatI_op, formatI_dst, formatI_bytes]
  | cvtai dst imm | cvtgi dst imm | cvtti dst imm => simp [encode, decode, formatI_op, formatI_dst, formatI_imm]

/-- A field of a word, placed where it was read, is the word under the field's bits (R11). -/
theorem place_extract (w : Word) (lo n : Nat) : place lo (w.extractLsb' lo n) = w &&& place lo (BitVec.allOnes n) := by
  ext i hi
  simp [place]
  grind

/-- A wider field of the same value places the same bits (R11). -/
theorem place_setWidth {n m : Nat} (lo : Nat) (v : BitVec n) (h : n ≤ m) : place lo (v.setWidth m) = place lo v := by
  rw [place, place, BitVec.setWidth_setWidth (by omega)]

/-- A zero field places no bit (R11). -/
theorem place_zero (lo n : Nat) : place lo 0#n = 0#32 := by
  simp [place]

/-- The destination value that names a destination (R82). -/
theorem dstBits_dstOf (d : BitVec 2) : dstBits (dstOf d) = d := by
  revert d; decide

/-- The three bits of a mask, one by one (R83). -/
theorem maskBits_getLsbD (m : Mask) :
    (maskBits m).getLsbD 0 = m.x ∧ (maskBits m).getLsbD 1 = m.y ∧ (maskBits m).getLsbD 2 = m.z := by
  obtain ⟨x, y, z⟩ := m
  revert x y z
  decide

/-- The three mask bits of a word are its MASK (R83). -/
theorem maskBits_maskField (w : Word) : maskBits (maskField w) = w.extractLsb' 24 3 := by
  obtain ⟨hx, hy, hz⟩ := maskBits_getLsbD (maskField w)
  apply BitVec.eq_of_getLsbD_eq
  intro i hi
  interval_cases i
  · simpa [maskField] using hx
  · simpa [maskField] using hy
  · simpa [maskField] using hz

/-- CVTT's mask bits are the one bit of MASK[0], widened (R83, R146). -/
theorem maskBits_mask0 (w : Word) : maskBits ⟨w.getLsbD 24, false, false⟩ = (w.extractLsb' 24 1).setWidth 3 := by
  have h : w.extractLsb' 24 1 = BitVec.ofBool (w.getLsbD 24) := by
    ext i hi
    simp [Nat.lt_one_iff.1 hi]
  rw [h]
  cases w.getLsbD 24 <;> rfl

/-- The two bytes of IMM16 side by side (R83). -/
theorem immHigh_append_immLow (w : Word) : immHigh w ++ immLow w = immField w := by
  ext i hi
  simp [immHigh, immLow, immField]
  grind

section Fields

variable {w : Word} {op : BitVec 4} (hop : opField w = op)

include hop

/-- The format T word of a word's OP alone is the word with every other bit cleared (R82, R84). -/
theorem formatT_of_op : formatT op 0#3 0#8 0#8 = w &&& ~~~0x0FFFFFFF#32 := by
  simp only [← hop, formatT, opField, place_extract, place_zero, BitVec.or_zero]
  rfl

/-- The format T word of a word's OP, LEN and REG is the word with RD's SBZ bits cleared (R82, R84). -/
theorem formatT_of_read_fields : formatT op (lenField w) (regField w) 0#8 = w &&& ~~~0x0100FFFF#32 := by
  simp only [← hop, formatT, opField, lenField, regField, place_extract, place_zero, BitVec.or_zero,
    ← BitVec.and_or_distrib_left]
  rfl

/-- The format T word of a word's fields is the word with WR's SBZ bits cleared (R82, R84). -/
theorem formatT_of_fields : formatT op (lenField w) (regField w) (wdataField w) = w &&& ~~~0x0100FF00#32 := by
  simp only [← hop, formatT, opField, lenField, regField, wdataField, place_extract, ← BitVec.and_or_distrib_left]
  rfl

/-- The format C word of a word's fields is the word with its format's SBZ bits cleared (R82, R84). -/
theorem formatC_of_fields : formatC op (maskBits (maskField w)) = w &&& ~~~0x08FFFFFF#32 := by
  simp only [← hop, maskBits_maskField, formatC, opField, place_extract, ← BitVec.and_or_distrib_left]
  rfl

/-- The format C word of a word's OP and MASK[0] is the word with CVTT's SBZ bits cleared (R82, R84). -/
theorem formatC_of_mask0 : formatC op (maskBits ⟨w.getLsbD 24, false, false⟩) = w &&& ~~~0x0EFFFFFF#32 := by
  simp only [← hop, maskBits_mask0, formatC, opField, place_setWidth 24 _ (Nat.le_add_left 1 2), place_extract,
    ← BitVec.and_or_distrib_left]
  rfl

/-- The format I word of a word's fields is the word with its format's SBZ bits cleared (R82, R84). -/
theorem formatI_of_fields : formatI op (dstBits (dstField w)) (immField w) = w &&& ~~~0x0CFF0000#32 := by
  simp only [← hop, dstField, dstBits_dstOf, formatI, opField, immField, place_extract, ← BitVec.and_or_distrib_left]
  rfl

end Fields

/-- Encoding the command of a word gives the word with the SBZ bits of its row cleared: for each OP, in the order of the
opcode map, the decoder reads the fields that the encoder's format places (R82, R84, R85). -/
theorem encode_decode (w : Word) : encode (decode w) = w &&& ~~~(decode w).row.sbz := by
  unfold decode
  generalize hop : opField w = op
  obtain ⟨op⟩ := op
  fin_cases op
  · exact formatT_of_op hop
  · exact formatT_of_read_fields hop
  · exact formatT_of_fields hop
  iterate 5 exact formatT_of_op hop
  iterate 3 exact formatC_of_fields hop
  · exact formatC_of_mask0 hop
  · exact immHigh_append_immLow w ▸ formatI_of_fields hop
  iterate 3 exact formatI_of_fields hop

/-- Every row of the opcode map selects by OP, which is the row's position (R85). -/
theorem opcodeTable_row (k : Fin 16) : (opcodeTable.getD k.val default).mask = 0xF0000000#32 ∧
    (opcodeTable.getD k.val default).pattern = place 28 (BitVec.ofFin (w := 4) k) := by
  revert k; decide

/-- A placed OP is read back (R81). -/
theorem opField_place (op : BitVec 4) : opField (place 28 op) = op := by
  ext i hi
  simp [opField, place]
  grind

/-- The selecting bits of a word are those of an OP exactly if it is the word's own (R81, R85). -/
theorem select_eq_place_iff (w : Word) (op : BitVec 4) : w &&& 0xF0000000#32 = place 28 op ↔ opField w = op := by
  have hsel : w &&& 0xF0000000#32 = place 28 (opField w) := (place_extract w 28 4).symm
  rw [hsel]
  exact ⟨fun h => by rw [← opField_place (opField w), h, opField_place], congrArg _⟩

/-- A row of the opcode map matches a word exactly if it stands at the word's OP (R85). -/
theorem row_matches_iff (w : Word) (k : Fin 16) :
    (opcodeTable.getD k.val default).matches w = true ↔ opField w = BitVec.ofFin k := by
  obtain ⟨hmask, hpattern⟩ := opcodeTable_row k
  rw [OpcodeRow.matches, hmask, hpattern, beq_iff_eq, select_eq_place_iff]

end Sys2Proof.Laws

open Sys2Proof Sys2Proof.Laws

/-- Settles O1, by the fields that each format gives back. -/
theorem decodeInvertsEncode : Obligations.DecodeInvertsEncode := decode_encode

/-- Settles O2: the cleared word is the command's encoding, which decodes to the command. -/
theorem sbzBitsAreIgnored : Obligations.SbzBitsAreIgnored := by
  intro w
  refine ⟨?_, encode_decode w⟩
  rw [← encode_decode, decode_encode]

/-- Settles O3: both the rows and the decoder go by OP. -/
theorem exactlyOneOpcodeRowMatches : Obligations.ExactlyOneOpcodeRowMatches := by
  intro w k
  rw [row_matches_iff, opField_eq_iff, eq_comm]

/-- Settles O4, by running the decoder on each word. -/
theorem workedWordsDecode : Obligations.WorkedWordsDecode := by
  refine ⟨?_, ?_, ?_, ?_, ?_, ?_, ?_, ?_, ?_⟩ <;> decide

end

section
/-!
PROOF. O5: what the assembler's operand forms emit.
-/

namespace Sys2Proof.Machine

/-- A length operand that is accepted is a legal length of a read (R61, R91). -/
theorem parseLen_readLengthOk {cs : List Char} {n : BitVec 3} (h : parseLen cs = some n) : readLengthOk n = true := by
  unfold parseLen at h
  cases hn : parseNum cs with
  | none => simp [hn] at h
  | some v =>
    simp only [hn, Option.ite_none_right_eq_some, Option.some.injEq] at h
    obtain ⟨h1 | h2 | h6, rfl⟩ := h
    · rw [h1]; rfl
    · rw [h2]; rfl
    · rw [h6]; rfl

/-- Whatever command there is, it is one that R90's forms can write (R91). -/
def EmitsWellFormed (o : Option Instr) : Prop := ∀ i, o = some i → i.wellFormed = true

/-- Of two forms that emit well-formed commands, the one that is chosen does. -/
theorem EmitsWellFormed.ite {c : Prop} [Decidable c] {a b : Option Instr} (ha : EmitsWellFormed a)
    (hb : EmitsWellFormed b) : EmitsWellFormed (if c then a else b) := by
  split
  · exact ha
  · exact hb

/-- A refusal emits nothing (R91). -/
theorem emitsWellFormed_none : EmitsWellFormed none := fun _ h => nomatch h

/-- A command without operands is emitted as it is (R90). -/
theorem bareForm_wellFormed {i : Instr} (hi : i.wellFormed = true) (ops : List (List Char)) :
    EmitsWellFormed (bareForm i ops) :=
  .ite (fun _ h => Option.some.inj h ▸ hi) emitsWellFormed_none

/-- `RD reg, len` emits a read of a legal length (R90, R91). -/
theorem rdForm_wellFormed (ops : List (List Char)) : EmitsWellFormed (rdForm ops) := by
  intro i h
  unfold rdForm at h
  split at h
  · split at h
    · next hlen => cases h; exact parseLen_readLengthOk hlen
    · cases h
    · cases h
  · cases h

/-- `WR reg, byte` emits a write of one byte (R90). -/
theorem wrForm_wellFormed (ops : List (List Char)) : EmitsWellFormed (wrForm ops) := by
  intro i h
  unfold wrForm at h
  split at h
  · split at h <;> cases h
    rfl
  · cases h

/-- A lane list makes a well-formed command where every mask does (R90). -/
theorem lanesForm_wellFormed {make : Mask → Instr} (hmake : ∀ m, (make m).wellFormed = true)
    (ops : List (List Char)) : EmitsWellFormed (lanesForm make ops) := by
  intro i h
  unfold lanesForm at h
  split at h
  · obtain ⟨m, -, rfl⟩ := Option.map_eq_some_iff.1 h
    exact hmake m
  · cases h

/-- A destination and an immediate make a well-formed command where every such pair does (R90). -/
theorem immediateForm_wellFormed {make : Option Lane → Half → Instr}
    (hmake : ∀ dst imm, (make dst imm).wellFormed = true) (ops : List (List Char)) :
    EmitsWellFormed (immediateForm make ops) := by
  intro i h
  unfold immediateForm at h
  split at h
  · split at h <;> cases h
    exact hmake _ _
  · cases h

/-- `CVTT` emits a conversion (R90). -/
theorem cvttForm_wellFormed (ops : List (List Char)) : EmitsWellFormed (cvttForm ops) := by
  intro i h
  unfold cvttForm at h
  split at h <;> cases h <;> rfl

/-- Every mnemonic's form emits well-formed commands alone, in the order of the definition (R90, R91, R92). -/
theorem assembleForm_wellFormed (mnemonic : List Char) (ops : List (List Char)) :
    EmitsWellFormed (assembleForm mnemonic ops) :=
  .ite (rdForm_wellFormed _) <|
  .ite (wrForm_wellFormed _) <|
  .ite (bareForm_wellFormed rfl _) <|
  .ite (bareForm_wellFormed rfl _) <|
  .ite (bareForm_wellFormed rfl _) <|
  .ite (bareForm_wellFormed rfl _) <|
  .ite (lanesForm_wellFormed (fun _ => rfl) _) <|
  .ite (lanesForm_wellFormed (fun _ => rfl) _) <|
  .ite (lanesForm_wellFormed (fun _ => rfl) _) <|
  .ite (cvttForm_wellFormed _) <|
  .ite (immediateForm_wellFormed (fun _ _ => rfl) _) <|
  .ite (immediateForm_wellFormed (fun _ _ => rfl) _) <|
  .ite (immediateForm_wellFormed (fun _ _ => rfl) _) <|
  .ite (immediateForm_wellFormed (fun _ _ => rfl) _) <|
  .ite (bareForm_wellFormed rfl _) <|
  .ite (bareForm_wellFormed rfl _) <|
  .ite (bareForm_wellFormed rfl _) emitsWellFormed_none

end Sys2Proof.Machine

open Sys2Proof.Machine

/-- Settles O5, form by form: RD alone has a length operand, and the parser accepts legal lengths alone. -/
theorem assemblerEmitsOnlyWellFormedCommands : Obligations.AssemblerEmitsOnlyWellFormedCommands :=
  fun _ => assembleForm_wellFormed _ _

end

section
/-!
PROOF. O9, O10, O12 and O42: what an accepted transaction or reserved command does, and the host's WAIT.
-/

namespace Sys2Proof.Machine

open Sys2Proof.Claims

/-- An accepted command that passes its checks is issued (R100, R101). -/
theorem transact_issued {l : Latch} {s : State} (ha : s.stat.active = false) (hb : s.params.bound = true)
    (hl : l.op.lengthLegal l.len = true) : transact l s = .next (issued s l (l.request s.params)) := by
  rw [transact, onCommand_idle _ ha, checkAndIssue, accept_params, hb, hl]
  rfl

/-- Acceptance and completion leave STAT with the code alone, where no transaction is in flight (R28, R30, R171). -/
theorem complete_accept {s : State} (ha : s.stat.active = false) (code : Result) :
    complete code (accept s) = completedWith s code s.res := by
  simp [complete, accept, completedWith, ha]

/-- An accepted command that fails a check completes TRANSPORT_ERROR (R100). -/
theorem transact_stopped {l : Latch} {s : State} (ha : s.stat.active = false)
    (hc : (s.params.bound && l.op.lengthLegal l.len) = false) :
    transact l s = .next (completedWith s .transportError s.res) := by
  rw [transact, onCommand_idle _ ha, checkAndIssue, accept_params, hc, ← complete_accept ha]
  rfl

/-- An accepted reserved command completes TRANSPORT_ERROR (R86). -/
theorem completeReserved_idle {s : State} (ha : s.stat.active = false) :
    completeReserved s = .next (completedWith s .transportError s.res) := by
  rw [completeReserved, onCommand_idle _ ha, complete_accept ha]

/-- The reserved commands are the ones of OP 0x0 and OP 0x7 (R86). -/
theorem op_eq_reserved_iff (i : Instr) : (i.op = 0x0 ↔ i = .reserved0) ∧ (i.op = 0x7 ↔ i = .reserved7) := by
  cases i <;> simp [Instr.op]

/-- The host's step on a WAIT is one STAT read, which ends the WAIT where ACTIVE = 0 (R92). -/
theorem hostStep_wait {s : State} (h : s.todo.head? = some .wait) :
    hostStep s = .next (see 1#3 s.stat.word (if s.stat.active then s else advance s)) := by
  obtain ⟨ops, htodo⟩ := List.head?_eq_some_iff.1 h
  rw [hostStep, htodo]
  cases ha : s.stat.active <;> simp [waitPoll, ha] <;> rfl

end Sys2Proof.Machine

open Sys2Proof Sys2Proof.Laws Sys2Proof.Machine

/-- Settles O12: OP alone makes a word reserved, and a reserved command has two outcomes, by ACTIVE. -/
theorem reservedCommandCompletesWithError : Obligations.ReservedCommandCompletesWithError := by
  refine ⟨fun w => ?_, fun s => ⟨fun ha => ?_, fun ha => ?_⟩⟩
  · obtain ⟨h0, h7⟩ := op_eq_reserved_iff (decode w)
    exact ⟨(opField_eq_iff w 0x0).trans h0, (opField_eq_iff w 0x7).trans h7⟩
  · exact ⟨completeReserved_idle ha, completeReserved_idle ha⟩
  · exact ⟨exec_active .reserved0 ha, exec_active .reserved7 ha⟩

/-- Settles O42, by the host's step on a WAIT, in each of its two cases. -/
theorem waitEndsWhenIdle : Obligations.WaitEndsWhenIdle := by
  intro s hc htodo
  refine ⟨_, (step_host hc).trans (hostStep_wait (by simpa using htodo)), ?_⟩
  cases ha : s.stat.active <;> simp [ha]

/-- Settles O9: the four fixed latches have a legal length, so each is issued. -/
theorem fixedFunctionCommandsIssueTheirRequest : Obligations.FixedFunctionCommandsIssueTheirRequest :=
  fun _ ha hb => ⟨transact_issued ha hb rfl, transact_issued ha hb rfl, transact_issued ha hb rfl,
    transact_issued ha hb rfl⟩

/-- Settles O10: the length check stops both commands, whether a transport is bound or not. -/
theorem illegalLengthCompletesWithError : Obligations.IllegalLengthCompletesWithError := by
  intro len reg wdata s ha
  refine ⟨fun h1 h2 h6 => transact_stopped ha ?_, fun h1 => transact_stopped ha ?_⟩
  · simp [TxOp.lengthLegal, TxOp.isRead, h1, h2, h6]
  · simp [TxOp.lengthLegal, TxOp.isRead, h1]

end

section
/-!
PROOF. O15, O16, O17, O21, O54, O52, O7 and O8: what the transport's answer leaves in the block, and which steps write BUF or
make a request.
-/

namespace Sys2Proof.Machine

open Sys2Proof.Claims

/-- A failed request stores no byte (R103). -/
@[simp] theorem failureAnswer_stored (why : Failure) (n : Nat) : (failureAnswer why).stored n = [] := by
  cases why <;> rfl

/-- The request in flight of a command that reads (R63, R87). -/
theorem inFlight_read {s : State} (h : s.latch.op.isRead = true) :
    inFlight s = .read (dev8 s.params) s.latch.reg s.latch.len.toNat s.params.timeout := by
  simp [inFlight, Latch.request, h]

/-- A served read gets as many of the bytes as LATCH.len asks for (R64). -/
theorem answerOf_served_read {s : State} {bytes : List Byte} (hop : s.latch.op.isRead = true)
    (hv : (nextDraw s).verdict = .served bytes) :
    answerOf (nextDraw s).verdict (inFlight s) = .data (bytes.take s.latch.len.toNat) := by
  rw [hv, inFlight_read hop]
  rfl

/-- The answer to a write stores no byte (R66, R102). -/
theorem answerOf_write_stored (v : Verdict) (d reg w : Byte) (timeout n : Nat) :
    (answerOf v (.write d reg w timeout)).stored n = [] := by
  cases v with
  | served bytes => rfl
  | failed why landed => exact failureAnswer_stored why n

/-- The commands that read are RD and IDENT (R63, R87). -/
theorem TxOp.isRead_iff (op : TxOp) : op.isRead = true ↔ op = .rd ∨ op = .ident := by
  cases op <;> decide

/-- What the transport's answer leaves as it is, whatever the answer (R102, R104). -/
theorem transportAnswer_frame (s : State) :
    (transportAnswer s).res = s.res ∧ (transportAnswer s).latch = s.latch ∧ (transportAnswer s).params = s.params ∧
    (transportAnswer s).requests = s.requests ∧ (transportAnswer s).todo = s.todo ∧
    (transportAnswer s).pos = s.pos ∧ (transportAnswer s).seen = s.seen :=
  ⟨rfl, rfl, rfl, rfl, rfl, rfl, rfl⟩

/-- The answer to a read does not reach the sensor (R68). -/
theorem transportAnswer_read_sensor {s : State} (hop : s.latch.op.isRead = true) :
    (transportAnswer s).sensor = s.sensor := by
  rw [transportAnswer_sensor, inFlight_read hop]
  rfl

/-- A failed answer reports its kind and keeps BUF, for a read and for a write (R102, R103). -/
theorem transportAnswer_failed {s : State} {why : Failure} {landed : Bool}
    (hv : (nextDraw s).verdict = .failed why landed) :
    (transportAnswer s).stat = ⟨false, (failureAnswer why).code s.latch.len.toNat, true, s.stat.rej⟩ ∧
    (transportAnswer s).buf = s.buf := by
  rw [transportAnswer_stat, transportAnswer_buf, hv, answerOf_failed]
  simp

/-- An answer to a read with too few bytes is an error and keeps BUF (R112). -/
theorem transportAnswer_short {s : State} {bytes : List Byte} (hop : s.latch.op.isRead = true)
    (hv : (nextDraw s).verdict = .served bytes) (hlen : bytes.length < s.latch.len.toNat) :
    (transportAnswer s).stat = ⟨false, .transportError, true, s.stat.rej⟩ ∧ (transportAnswer s).buf = s.buf := by
  have hne : (bytes.take s.latch.len.toNat).length ≠ s.latch.len.toNat := by
    rw [List.length_take]
    omega
  rw [transportAnswer_stat, transportAnswer_buf, answerOf_served_read hop hv]
  simp only [Answer.code, Answer.stored, if_neg hne, storeBuf_nil, and_self]

/-- A full answer to a read completes OK and stores its bytes from BUF[0] on (R102, R57). -/
theorem transportAnswer_full {s : State} {bytes : List Byte} (hop : s.latch.op.isRead = true)
    (hv : (nextDraw s).verdict = .served bytes) (hlen : s.latch.len.toNat ≤ bytes.length) :
    (transportAnswer s).stat = ⟨false, .ok, true, s.stat.rej⟩ ∧
    (transportAnswer s).buf = (storeBuf (bytes.take s.latch.len.toNat) s).buf := by
  have heq : (bytes.take s.latch.len.toNat).length = s.latch.len.toNat := List.length_take_of_le hlen
  rw [transportAnswer_stat, transportAnswer_buf, answerOf_served_read hop hv]
  simp only [Answer.code, Answer.stored, if_pos heq, and_self]

/-- A store of the first n of at least n bytes writes the bytes of BUF below n (R25, R57). -/
theorem storeBuf_take_get {bytes : List Byte} {n : Nat} (hlen : n ≤ bytes.length) (s : State) (i : Fin 6) :
    (storeBuf (bytes.take n) s).buf[i] = if i.val < n then ⟨bytes.getD i.val 0#8, true⟩ else s.buf[i] := by
  rw [storeBuf_get]
  split
  · rename_i hi
    have hb : i.val < bytes.length := Nat.lt_of_lt_of_le hi hlen
    simp [hi, hb, receive, Slot.hold]
  · rename_i hi
    simp [hi, receive]

/-- A transport's answer that changes BUF is a full answer to an RD or an IDENT (R103). -/
theorem transportAnswer_buf_changed {s : State} (hne : (transportAnswer s).buf ≠ s.buf) :
    s.latch.op.isRead = true ∧ (transportAnswer s).stat = ⟨false, .ok, true, s.stat.rej⟩ := by
  rw [transportAnswer_buf] at hne
  rw [transportAnswer_stat]
  rcases answer_stored (answerOf (nextDraw s).verdict (inFlight s)) s.latch.len.toNat with
    ⟨bs, -, -, -, hcode⟩ | hnone
  · refine ⟨?_, by rw [hcode]⟩
    by_contra hop
    rw [inFlight_write (Bool.eq_false_iff.2 hop), answerOf_write_stored, storeBuf_nil] at hne
    exact hne rfl
  · rw [hnone, storeBuf_nil] at hne
    exact absurd rfl hne

/-- A command that leaves a transaction in flight where there was none has issued it (R100, R101). -/
theorem exec_issued_of_active {i : Instr} {s t : State} (ha : s.stat.active = false) (h : exec i s = .next t)
    (hact : t.stat.active = true) : ∃ l, t = issue l (accept s) := by
  rcases exec_cases h with ⟨ha', -⟩ | ⟨-, -, l, -, -, rfl⟩ | ⟨-, code, res, rfl, -⟩
  · cases ha.symm.trans ha'
  · exact ⟨l, rfl⟩
  · cases ha.symm.trans hact

/-- A command with a latched form is a transaction command (R17, R87). -/
theorem isTransaction_of_latchOf {i : Instr} {l : Latch} (h : latchOf i = some l) : isTransaction i = true := by
  cases i with
  | rd | wr | ident | wake | setacc2g | setgyr250 => rfl
  | reserved0 | reserved7 | asm | cvta | cvtg | cvtt | asmi | cvtai | cvtgi | cvtti => cases h

/-- A command makes no request, or is a transaction command that was accepted and makes one (R69, R101). -/
theorem exec_requests {i : Instr} {s t : State} (h : exec i s = .next t) :
    t.requests = s.requests ∨
    isTransaction i = true ∧ s.stat.active = false ∧ t.stat.active = true ∧ ∃ r, t.requests = s.requests ++ [r] := by
  rcases exec_cases h with ⟨-, rfl⟩ | ⟨ha, -, l, hl, -, rfl⟩ | ⟨-, code, res, rfl, -⟩
  · exact .inl rfl
  · exact .inr ⟨isTransaction_of_latchOf hl, ha, rfl, l.request s.params, rfl⟩
  · exact .inl rfl

/-- A command leaves BUF as it is (R25). -/
theorem exec_buf {i : Instr} {s t : State} (h : exec i s = .next t) : t.buf = s.buf := by
  rcases exec_cases h with ⟨-, rfl⟩ | ⟨-, -, l, -, -, rfl⟩ | ⟨-, code, res, rfl, -⟩ <;> rfl

/-- The host's step is a CMD write, or keeps BUF and the requests (R33, R198). -/
theorem hostStep_command_or_keeps_buf_requests {s t : State} (h : hostStep s = .next t) :
    (∃ w, s.todo.head? = some (.write 0#3 w) ∧ exec (decode w) (advance s) = .next t) ∨
    t.buf = s.buf ∧ t.requests = s.requests := by
  rcases hostStep_cases h with ⟨_, _, -, -, rfl⟩ | hw | ⟨_, _, -, -, rfl⟩ | ⟨-, _, rfl⟩
  · exact .inr ⟨rfl, rfl⟩
  · exact .inl hw
  · exact .inr ⟨rfl, rfl⟩
  · cases s.stat.active <;> exact .inr ⟨rfl, rfl⟩

/-- A late answer keeps BUF and the requests (R190). -/
theorem lateAnswer_buf_requests (k : Nat) (s : State) :
    (lateAnswer k s).buf = s.buf ∧ (lateAnswer k s).requests = s.requests := by
  unfold lateAnswer
  split <;> exact ⟨rfl, rfl⟩

end Sys2Proof.Machine

open Sys2Proof.Machine

/-- Settles O15: the answer is the bytes asked for, and they are all there. -/
theorem fullReadStoresEveryByte : Obligations.FullReadStoresEveryByte := by
  intro s bytes hc hop hv hlen
  have hop' : (tick s).latch.op.isRead = true := by simpa using hop
  have hv' : (nextDraw (tick s)).verdict = .served bytes := by simpa using hv
  have hlen' : (tick s).latch.len.toNat ≤ bytes.length := by simpa using hlen
  obtain ⟨hstat, hbuf⟩ := transportAnswer_full hop' hv' hlen'
  refine ⟨_, step_transport hc, ?_, fun i => ?_, ?_, ?_⟩
  · simpa using hstat
  · rw [hbuf, storeBuf_take_get hlen']
    simp
  · rw [transportAnswer_answers, answerOf_served_read hop' hv']
    simp
  · simpa [transportAnswer_read_sensor hop'] using transportAnswer_frame (tick s)

/-- Settles O16, by the answer's length. -/
theorem shortReadIsAnError : Obligations.ShortReadIsAnError := by
  intro s bytes hc hop hv hlen
  have hop' : (tick s).latch.op.isRead = true := by simpa using hop
  obtain ⟨hstat, hbuf⟩ := transportAnswer_short hop' (by simpa using hv) (by simpa using hlen)
  obtain ⟨hres, -, -, hreq, -⟩ := transportAnswer_frame (tick s)
  exact ⟨_, step_transport hc, by simpa using hstat, by simpa using hbuf, by simpa using hres,
    by simpa using transportAnswer_read_sensor hop', by simpa using hreq⟩

/-- Settles O17: each kind of failure is an answer with the code that R102 gives it, and no answer makes a request. -/
theorem failedAnswerReportsItsKind : Obligations.FailedAnswerReportsItsKind := by
  intro s why landed hc hv
  obtain ⟨hstat, hbuf⟩ := transportAnswer_failed (s := tick s) (by simpa using hv)
  obtain ⟨hres, -, -, hreq, -⟩ := transportAnswer_frame (tick s)
  refine ⟨_, step_transport hc, ?_, by simpa using hbuf, by simpa using hres, by simpa using hreq⟩
  rw [hstat, tick_stat]
  cases why <;> rfl

/-- Settles O21: a command that is now in flight was accepted with REJ = 0 and wrote no byte of BUF, and neither does its failed
answer. -/
theorem timedOutTransactionReportsTimeout : Obligations.TimedOutTransactionReportsTimeout := by
  intro i s t landed _ ha h hact hv
  obtain ⟨l, rfl⟩ := exec_issued_of_active ha h hact
  obtain ⟨hstat, hbuf⟩ := transportAnswer_failed hv
  have hstat' : (transportAnswer (issue l (accept s))).stat = ⟨false, .timeout, true, false⟩ := hstat
  refine ⟨?_, hbuf⟩
  rw [hstat']
  decide

/-- Settles O54: no command writes BUF, so it is the transport's answer or the reset. -/
theorem onlySuccessfulReadsWriteTheBuffer : Obligations.OnlySuccessfulReadsWriteTheBuffer := by
  intro s t h hne
  rcases step_cases h with ⟨-, hh⟩ | ⟨hc, rfl⟩ | ⟨k, -, rfl⟩ | ⟨hc, -⟩
  · rcases hostStep_command_or_keeps_buf_requests hh with ⟨w, -, hx⟩ | ⟨hbuf, -⟩
    · exact absurd ((exec_buf hx).trans (tick_buf s)) hne
    · exact absurd (hbuf.trans (tick_buf s)) hne
  · obtain ⟨hop, hstat⟩ := transportAnswer_buf_changed (s := tick s) (by simpa using hne)
    exact .inr ⟨hc, (TxOp.isRead_iff _).1 (by simpa using hop), by simpa using hstat⟩
  · exact absurd ((lateAnswer_buf_requests k (tick s)).1.trans (tick_buf s)) hne
  · exact .inl hc

/-- Settles O52: of all steps only a CMD write can make a request, and the command says which. -/
theorem requestsComeOnlyFromAcceptedCommands : Obligations.RequestsComeOnlyFromAcceptedCommands := by
  intro s t h
  rcases step_cases h with ⟨hc, hh⟩ | ⟨-, rfl⟩ | ⟨k, -, rfl⟩ | ⟨-, rfl⟩
  · rcases hostStep_command_or_keeps_buf_requests hh with ⟨w, hw, hx⟩ | ⟨-, hreq⟩
    · rcases exec_requests hx with hreq | ⟨htx, ha, hact, r, hreq⟩
      · exact .inl (by simpa using hreq)
      · exact .inr ⟨w, r, ⟨hc, by simpa using hw⟩, htx, by simpa using ha, hact, by simpa using hreq⟩
    · exact .inl (hreq.trans (tick_requests s))
  · exact .inl (tick_requests s)
  · exact .inl ((lateAnswer_buf_requests k (tick s)).2.trans (tick_requests s))
  · exact .inl (tick_requests s)

/-- Settles O7: the three lengths are RD's legal ones. -/
theorem rdIssuesOneReadRequest : Obligations.RdIssuesOneReadRequest := by
  intro len reg s ha hb hlen
  refine transact_issued ha hb ?_
  rcases hlen with rfl | rfl | rfl <;> rfl

/-- Settles O8: length 1 is WR's legal one. -/
theorem wrIssuesOneWriteRequest : Obligations.WrIssuesOneWriteRequest :=
  fun _ _ _ ha hb => transact_issued ha hb rfl

end

section
/-!
PROOF. O23, O24, O25, O26, O27 and O29: what a conversion command writes, and that it reads BUF and its operands alone.
-/

namespace Sys2Proof.Machine

open Sys2Proof.Claims

/-- A lane whose two bytes are written is sampled as its two bytes (R139). -/
theorem sample_written {k : Lane} {s : State} (h : laneWritten s k) : sample k s = .ok (laneSample s k) := by
  obtain ⟨hhi, hlo⟩ := h
  rw [sample_eq, if_pos hhi, if_pos hlo, laneSample]

/-- Whether a lane is written depends on BUF alone (R40). -/
theorem laneWritten_congr {s t : State} (h : t.buf = s.buf) (k : Lane) : laneWritten t k = laneWritten s k := by
  rw [laneWritten, laneWritten, h]

/-- The sample of a lane depends on BUF alone (R130). -/
theorem laneSample_congr {s t : State} (h : t.buf = s.buf) (k : Lane) : laneSample t k = laneSample s k := by
  rw [laneSample, laneSample, h]

/-- A format-C command whose selected lanes are written converts each of them and completes OK (R139). -/
theorem convertBuf_written (f : Half → Word) {m : Mask} {s : State} (ha : s.stat.active = false)
    (hw : ∀ k, m.on k = true → laneWritten s k) : convertsLanes (convertBuf f m s) s m f := by
  rcases convertBuf_cases f m s with ⟨hact, -⟩ | ⟨-, e, k, hon, hs, -⟩ | ⟨-, res, hx, hin, hout⟩
  · cases ha.symm.trans hact
  · cases (sample_written (hw k hon)).symm.trans hs
  · refine ⟨res, hx.trans (congrArg _ (complete_accept (s := { s with res := res }) ha .ok)), fun k => ?_⟩
    cases hon : m.on k with
    | false => exact hout k hon
    | true =>
      obtain ⟨raw, hs, hr⟩ := hin k hon
      cases (sample_written (hw k hon)).symm.trans hs
      exact hr

/-- A format-C command that is no fault found every lane it selects written (R40). -/
theorem laneWritten_of_convertBuf {f : Half → Word} {m : Mask} {s t : State} (ha : s.stat.active = false)
    (h : convertBuf f m s = .next t) (k : Lane) (hon : m.on k = true) : laneWritten s k := by
  by_contra hw
  obtain ⟨i, -, -, hfault⟩ := convertBuf_unwritten ha ⟨k, hon, hw⟩
  cases (hfault f).symm.trans h

/-- A format-I command writes its destination, where it has one, and completes OK (R139). -/
theorem convertImm_idle (f : Half → Word) (dst : Option Lane) (raw : Half) {s : State} (ha : s.stat.active = false) :
    convertsImmediate (convertImm f dst raw s) s dst (f raw) := by
  have hx : convertImm f dst raw s = .next (completedWith s .ok (writeDst dst (f raw) s).res) := by
    rw [convertImm, onCommand_idle _ ha]
    cases dst with
    | none => exact congrArg _ (complete_accept ha .ok)
    | some j => exact congrArg _ (complete_accept (s := writeRes j (f raw) s) ha .ok)
  refine ⟨_, hx, fun k => ?_⟩
  cases dst with
  | none => rfl
  | some j =>
    by_cases hjk : j = k
    · subst hjk
      rw [if_pos rfl]
      exact writeRes_same j (f raw) s
    · rw [if_neg (by simpa using hjk)]
      exact writeRes_other k j (f raw) s hjk

/-- `ASM16` is the concatenation of its bytes, high byte first (R140). -/
theorem asm16_eq_append (hi lo : Byte) : asm16 hi lo = hi ++ lo := by
  ext i h
  simp [asm16]
  grind

end Sys2Proof.Machine

open Sys2Proof.Machine Sys2Proof.Claims

/-- Settles O23: ASM is the format-C command of the sign extension. -/
theorem asmAssemblesSelectedLanes : Obligations.AsmAssemblesSelectedLanes :=
  fun _ _ ha hw => convertBuf_written asmWord ha hw

/-- Settles O24: CVTA is the format-C command of `ACC`. -/
theorem cvtaConvertsSelectedLanes : Obligations.CvtaConvertsSelectedLanes :=
  fun _ _ ha hw => convertBuf_written accWord ha hw

/-- Settles O25: CVTG is the format-C command of `GYRO`. -/
theorem cvtgConvertsSelectedLanes : Obligations.CvtgConvertsSelectedLanes :=
  fun _ _ ha hw => convertBuf_written gyroWord ha hw

/-- Settles O26: CVTT is the format-C command of `TEMP` whose mask selects lane X at most. -/
theorem cvttConvertsLaneX : Obligations.CvttConvertsLaneX := by
  intro m0 s ha hw
  refine convertBuf_written tempWord ha fun k hon => ?_
  cases k with
  | x => exact hw hon
  | y | z => cases hon

/-- Settles O27: each of the four commands is the format-I command of its word; ASMI's sample is its two immediate bytes. -/
theorem immediateConversionsWriteTheirDestination : Obligations.ImmediateConversionsWriteTheirDestination := by
  intro dst imm hi lo s ha
  refine ⟨?_, convertImm_idle accWord dst imm ha, convertImm_idle gyroWord dst imm ha, convertImm_idle tempWord dst imm ha⟩
  rw [← asm16_eq_append]
  exact convertImm_idle asmWord dst (asm16 hi lo) ha

/-- Settles O29: a format-C command that is no fault on one state finds the same lanes written, with the same samples, on every
state with the same BUF; a format-I command reads its operands alone. -/
theorem conversionsDependOnBufAlone : Obligations.ConversionsDependOnBufAlone := by
  intro i s s' t hi ha ha' hbuf h
  rcases exec_conversion_form hi with ⟨f, m, hlanes, he⟩ | ⟨f, dst, raw, hlanes, he⟩ <;> rw [he] at h ⊢
  · have hw := laneWritten_of_convertBuf ha h
    have hw' : ∀ k, m.on k = true → laneWritten s' k := fun k hon => laneWritten_congr hbuf k ▸ hw k hon
    obtain ⟨res, hx, hres⟩ := convertBuf_written f ha hw
    obtain ⟨res', hx', hres'⟩ := convertBuf_written f ha' hw'
    cases hx.symm.trans h
    refine ⟨_, hx', rfl, fun k hk => ?_⟩
    have hon : m.on k = true := (hlanes k).symm.trans hk
    calc res'[k.idx] = ⟨f (laneSample s' k), true⟩ := by rw [hres', if_pos hon]
      _ = ⟨f (laneSample s k), true⟩ := by rw [laneSample_congr hbuf]
      _ = res[k.idx] := by rw [hres, if_pos hon]
  · obtain ⟨res, hx, hres⟩ := convertImm_idle f dst raw ha
    obtain ⟨res', hx', hres'⟩ := convertImm_idle f dst raw ha'
    cases hx.symm.trans h
    refine ⟨_, hx', rfl, fun k hk => ?_⟩
    have hdst : dst = some k := by simpa using (hlanes k).symm.trans hk
    calc res'[k.idx] = ⟨f raw, true⟩ := by rw [hres', if_pos hdst]
      _ = res[k.idx] := by rw [hres, if_pos hdst]

end

section
/-!
PROOF. O30, O31, O32, O33, O34, O35 and O36: the converter's arithmetic.
-/

namespace Sys2Proof.Machine

/-- On a numerator that is not negative `rdiv` is the floor of the quotient moved up by the half divisor (R132). -/
theorem rdiv_of_nonneg {n d : Int} (hn : 0 ≤ n) (hd : 0 < d) : rdiv n d = (n + d / 2) / d := by
  rw [rdiv, if_pos hn, tdiv, Int.tdiv_eq_ediv_of_nonneg (by omega)]

/-- `rdiv` of 0 is 0: the half divisor is less than the divisor (R132). -/
theorem rdiv_zero {d : Int} (hd : 0 < d) : rdiv 0 d = 0 := by
  rw [rdiv_of_nonneg le_rfl hd]
  exact Int.ediv_eq_zero_of_lt (by omega) (by omega)

/-- `rdiv` of the negation of a positive numerator, since truncation is odd (R132). -/
theorem rdiv_neg_of_pos {n : Int} (d : Int) (hn : 0 < n) : rdiv (-n) d = -rdiv n d := by
  have hsum : -n - d / 2 = -(n + d / 2) := by omega
  rw [rdiv, if_neg (by omega), rdiv, if_pos hn.le, hsum, tdiv, tdiv, Int.neg_tdiv]

/-- `rdiv` is odd (R133). -/
theorem rdiv_neg (n : Int) {d : Int} (hd : 0 < d) : rdiv (-n) d = -rdiv n d := by
  rcases lt_trichotomy n 0 with hn | rfl | hn
  · have h := rdiv_neg_of_pos d (neg_pos.2 hn)
    rw [neg_neg] at h
    rw [h, neg_neg]
  · rw [neg_zero, rdiv_zero hd, neg_zero]
  · exact rdiv_neg_of_pos d hn

/-- `rdiv` divides the magnitude, rounding a half away from zero, and gives the quotient the numerator's sign (R133). -/
theorem rdiv_eq_sign_mul (n : Int) {d : Int} (hd : 0 < d) : rdiv n d = n.sign * ((n.natAbs + d / 2) / d) := by
  rcases lt_trichotomy n 0 with hn | rfl | hn
  · have habs : (n.natAbs : Int) = -n := Int.ofNat_natAbs_of_nonpos hn.le
    have hpos : 0 ≤ -n := (neg_pos.2 hn).le
    rw [habs, Int.sign_eq_neg_one_of_neg hn, neg_one_mul, ← rdiv_of_nonneg hpos hd, rdiv_neg n hd, neg_neg]
  · rw [rdiv_zero hd, Int.sign_zero, zero_mul]
  · rw [rdiv_of_nonneg hn.le hd, Int.natAbs_of_nonneg hn.le, Int.sign_eq_one_of_pos hn, one_mul]

/-- `rdiv` lies within half a unit of the exact quotient (R133). -/
theorem rdiv_within_half (n : Int) {d : Int} (hd : 0 < d) :
    -d ≤ 2 * (d * rdiv n d - n) ∧ 2 * (d * rdiv n d - n) ≤ d := by
  have hnonneg : ∀ p : Int, 0 ≤ p → -d ≤ 2 * (d * rdiv p d - p) ∧ 2 * (d * rdiv p d - p) ≤ d := by
    intro p hp
    rw [rdiv_of_nonneg hp hd]
    have hle := Int.mul_ediv_self_le (x := p + d / 2) hd.ne'
    have hlt := Int.lt_mul_ediv_self_add (x := p + d / 2) hd
    omega
  rcases le_total 0 n with hn | hn
  · exact hnonneg n hn
  · have h := hnonneg (-n) (neg_nonneg.2 hn)
    rw [rdiv_neg n hd, mul_neg] at h
    omega

/-- `sat` clamps (R134). -/
theorem sat_eq_clamp (v : Int) : sat v = max (-32767) (min 32767 v) := by
  unfold sat satHi satLo
  split
  · omega
  · split <;> omega

/-- A raw sample is an int16 (R12). -/
theorem half_toInt_bounds (raw : Half) : -32768 ≤ raw.toInt ∧ raw.toInt ≤ 32767 :=
  ⟨raw.le_toInt, BitVec.toInt_le⟩

/-- The result word of an int16 value reads as that value (R11, R12). -/
theorem sext32_int16_toInt {v : Int} (hlo : -32768 ≤ v) (hhi : v ≤ 32767) : (sext32 (int16 v)).toInt = v := by
  rw [sext32, BitVec.toInt_signExtend_of_le (by decide), int16]
  exact BitVec.toInt_ofInt_eq_self (by decide) hlo (by omega)

/-- The angular-rate word reads as the rounded quotient, which is within int16 (R137). -/
theorem gyroWord_toInt (raw : Half) : (gyroWord raw).toInt = rdiv (raw.toInt * 100) 131 := by
  obtain ⟨hlo, hhi⟩ := half_toInt_bounds raw
  obtain ⟨hge, hle⟩ := rdiv_within_half (raw.toInt * 100) (d := 131) (by decide)
  exact sext32_int16_toInt (v := rdiv (raw.toInt * 100) 131) (by omega) (by omega)

/-- The temperature word reads as the rounded quotient with the offset: the clamp never acts on a raw sample (R136, R141). -/
theorem tempWord_toInt (raw : Half) : (tempWord raw).toInt = rdiv (raw.toInt * 100) 340 + 3653 := by
  obtain ⟨hlo, hhi⟩ := half_toInt_bounds raw
  obtain ⟨hge, hle⟩ := rdiv_within_half (raw.toInt * 100) (d := 340) (by decide)
  have hsat : tempValue (s16 raw) = rdiv (raw.toInt * 100) 340 + 3653 :=
    (sat_eq_clamp (rdiv (raw.toInt * 100) 340 + 3653)).trans (by omega)
  rw [tempWord, hsat]
  exact sext32_int16_toInt (by omega) (by omega)

/-- The angular-rate word lies strictly within half a unit of the exact quotient: 131 is odd, so there is no tie (R142 (d)). -/
theorem gyroWord_nearest (raw : Half) :
    -131 < 2 * (131 * (gyroWord raw).toInt - 100 * raw.toInt) ∧
    2 * (131 * (gyroWord raw).toInt - 100 * raw.toInt) < 131 := by
  have h := rdiv_within_half (raw.toInt * 100) (d := 131) (by decide)
  rw [← gyroWord_toInt] at h
  omega

/-- The temperature word lies strictly within half a unit of the exact transform: a tie would make 17 a multiple of 2
(R142 (d)). -/
theorem tempWord_nearest (raw : Half) :
    -340 < 2 * (340 * ((tempWord raw).toInt - 3653) - 100 * raw.toInt) ∧
    2 * (340 * ((tempWord raw).toInt - 3653) - 100 * raw.toInt) < 340 := by
  have h := rdiv_within_half (raw.toInt * 100) (d := 340) (by decide)
  rw [← add_sub_cancel_right (rdiv (raw.toInt * 100) 340) 3653, ← tempWord_toInt] at h
  omega

/-- Twice a magnitude is less than a bound where twice the number lies strictly between the bound and its negation. -/
theorem two_mul_abs_lt {x d : Int} (h : -d < 2 * x ∧ 2 * x < d) : 2 * |x| < d := by
  have habs : |2 * x| < d := abs_lt.2 h
  rwa [abs_mul, abs_two] at habs

/-- The three fields of a binary32 pattern (R138). -/
theorem binary32_fields (sign : Bool) (exponent : BitVec 8) (fraction : BitVec 23) :
    (binary32 sign exponent fraction).getLsbD 31 = sign ∧
    (binary32 sign exponent fraction).extractLsb' 23 8 = exponent ∧
    (binary32 sign exponent fraction).extractLsb' 0 23 = fraction := by
  refine ⟨by simp [binary32, place], ?_, ?_⟩ <;> ext i hi <;> simp [binary32, place] <;> grind

/-- The magnitude of a nonzero sample has its leading 1 at bit 15 or below (R138). -/
theorem log2_natAbs_le (raw : Half) (h : raw.toInt ≠ 0) : Nat.log2 raw.toInt.natAbs ≤ 15 := by
  obtain ⟨hlo, hhi⟩ := half_toInt_bounds raw
  exact Nat.le_of_lt_succ ((Nat.log2_lt (Int.natAbs_ne_zero.2 h)).2 (by omega))

/-- A magnitude without its leading 1, moved to the top of the fraction field, fits in it (R138). -/
theorem fraction_lt {m : Nat} (he : Nat.log2 m ≤ 23) : (m - 2 ^ Nat.log2 m) * 2 ^ (23 - Nat.log2 m) < 2 ^ 23 := by
  have hlt : m - 2 ^ Nat.log2 m < 2 ^ Nat.log2 m := by
    have h := @Nat.lt_log2_self m
    rw [pow_succ] at h
    omega
  calc (m - 2 ^ Nat.log2 m) * 2 ^ (23 - Nat.log2 m)
      < 2 ^ Nat.log2 m * 2 ^ (23 - Nat.log2 m) := Nat.mul_lt_mul_of_pos_right hlt (by positivity)
    _ = 2 ^ 23 := pow_mul_pow_sub 2 he

/-- The fraction with the hidden 1 is the magnitude moved to the top of the significand (R138). -/
theorem hidden_one_add_fraction {m : Nat} (hm : m ≠ 0) (he : Nat.log2 m ≤ 23) :
    2 ^ 23 + (m - 2 ^ Nat.log2 m) * 2 ^ (23 - Nat.log2 m) = m * 2 ^ (23 - Nat.log2 m) := by
  rw [← pow_mul_pow_sub 2 he, ← add_mul, Nat.add_sub_cancel' (Nat.log2_self_le hm)]

/-- The fields of the acceleration word of a nonzero sample with magnitude m and its leading 1 at bit e, as numbers: the sign,
the place of the leading 1 with the bias 127 less the scale 14, and what is below the leading 1 (R138). -/
theorem accWord_fields {raw : Half} {m e : Nat} (h : raw.toInt ≠ 0) (hm : raw.toInt.natAbs = m) (he : Nat.log2 m = e) :
    (accWord raw).getLsbD 31 = decide (raw.toInt < 0) ∧
    ((accWord raw).extractLsb' 23 8).toNat = e + 113 ∧
    ((accWord raw).extractLsb' 0 23).toNat = (m - 2 ^ e) * 2 ^ (23 - e) := by
  subst hm he
  have hle : Nat.log2 (s16 raw).natAbs ≤ 15 := log2_natAbs_le raw h
  have hword : accWord raw = binary32 _ _ _ := if_neg h
  obtain ⟨hsign, hexp, hfrac⟩ := binary32_fields _ _ _
  rw [hword]
  refine ⟨hsign, (congrArg BitVec.toNat hexp).trans ?_, (congrArg BitVec.toNat hfrac).trans ?_⟩
  · exact (BitVec.toNat_ofNat _ _).trans (Nat.mod_eq_of_lt (by omega))
  · exact (BitVec.toNat_ofNat _ _).trans (Nat.mod_eq_of_lt (fraction_lt (by omega)))

end Sys2Proof.Machine

open Sys2Proof.Machine

/-- Settles O30, by the oddness of truncating division; the two ties are closed facts. -/
theorem rdivRoundsAwayFromZero : Obligations.RdivRoundsAwayFromZero :=
  ⟨fun n _ hd => ⟨rdiv_neg n hd, rdiv_eq_sign_mul n hd⟩, by decide, by decide, sat_eq_clamp⟩

/-- Settles O31: the rounded quotient is within half a unit, and a tie is excluded by parity. -/
theorem temperatureIsTheNearestValue : Obligations.TemperatureIsTheNearestValue :=
  fun raw => two_mul_abs_lt (tempWord_nearest raw)

/-- Settles O32: the rounded quotient is within half a unit, and a tie is excluded by parity. -/
theorem angularRateIsTheNearestValue : Obligations.AngularRateIsTheNearestValue :=
  fun raw => two_mul_abs_lt (gyroWord_nearest raw)

/-- Settles O33: the value nearest to an int16's image lies between the images of the two extreme samples. -/
theorem integerConversionRanges : Obligations.IntegerConversionRanges := by
  refine ⟨fun raw => ?_, by decide, by decide, by decide, by decide⟩
  have hraw := half_toInt_bounds raw
  have htemp := tempWord_nearest raw
  have hgyro := gyroWord_nearest raw
  omega

/-- Settles O34: a nearest value that is never a tie is the only one so near, so it grows with raw and is odd as the exact
transform is. -/
theorem integerConversionsAreMonotoneAndOdd : Obligations.IntegerConversionsAreMonotoneAndOdd := by
  refine ⟨fun a b hab => ?_, fun raw hraw => ?_⟩
  · have ta := tempWord_nearest a
    have tb := tempWord_nearest b
    have ga := gyroWord_nearest a
    have gb := gyroWord_nearest b
    omega
  · have hneg : (-raw).toInt = -raw.toInt := BitVec.toInt_neg_of_ne_intMin hraw
    have t := tempWord_nearest raw
    have t' := tempWord_nearest (-raw)
    have g := gyroWord_nearest raw
    have g' := gyroWord_nearest (-raw)
    omega

/-- Settles O35: with the hidden 1 the significand is |raw| * 2^(23 - e) and the exponent e + 113, where e is the place of the
leading 1. -/
theorem accelerationIsExact : Obligations.AccelerationIsExact := by
  refine ⟨rfl, fun raw hraw => ?_⟩
  have h0 : raw.toInt ≠ 0 := BitVec.toInt_ne.2 hraw
  have he := log2_natAbs_le raw h0
  obtain ⟨hsign, hexp, hfrac⟩ := accWord_fields h0 rfl rfl
  rw [hexp, hfrac, hidden_one_add_fraction (Int.natAbs_ne_zero.2 h0) (by omega), mul_assoc, ← pow_add]
  refine ⟨hsign, by omega, by omega, ?_⟩
  congr 2
  omega

/-- Settles O36: assembly is concatenation. -/
theorem sampleAssemblyIsBigEndian : Obligations.SampleAssemblyIsBigEndian := by
  refine ⟨fun hi lo => ?_, fun raw => ?_⟩
  · rw [asm16_eq_append, BitVec.toInt_append, if_neg (by decide), BitVec.toInt_eq_toNat_cond]
    omega
  · rw [asm16_eq_append, BitVec.extractLsb'_append_extractLsb'_eq_extractLsb' (start₁ := 0) (len₁ := 8) rfl]
    exact BitVec.extractLsb'_eq_self

end

section
/-!
PROOF. O44: a named agent that has a step moves, and a CMD write it makes while a request is in flight is ignored.
-/

namespace Sys2Proof.Machine

open Sys2Proof.Claims

/-- The agent that the outside choice names moves, where it has a step (R198; log 6). -/
theorem chooseTurn_named {s : State} {u : Turn} {us : List Turn} (h : s.turns = u :: us) (he : enabled u s = true) :
    chooseTurn s = some u := by
  simp [chooseTurn, h, he]

/-- A CMD write that the host makes while a request is in flight is used up and only sets REJ (R30, R177). -/
theorem step_hostWrites_active {s : State} {w : Word} (h : hostWrites s w) (ha : s.stat.active = true) :
    step s = .next (reject (advance (tick s))) := by
  obtain ⟨hc, htodo⟩ := h
  rw [step_host hc, hostStep_write (by simpa using htodo), hostWrite, if_pos rfl]
  exact exec_active _ (by simpa using ha)

end Sys2Proof.Machine

open Sys2Proof.Machine

/-- Settles O44: both agents have a step, so either moves where it is named; the host's write meets ACTIVE = 1, and the
transport's answer completes the command and leaves the host's operations alone. -/
theorem writeAndAnswerRaceBothWays : Obligations.WriteAndAnswerRaceBothWays := by
  intro s w ops ts ha htodo
  constructor
  · have hhost : chooseTurn { s with turns := .host :: ts } = some .host :=
      chooseTurn_named rfl (by simp [enabled, htodo])
    refine ⟨_, step_hostWrites_active (w := w) ⟨hhost, by simp [htodo]⟩ ha, ?_⟩
    simp [htodo]
  · have htransport : chooseTurn { s with turns := .transport :: ts } = some .transport :=
      chooseTurn_named rfl ha
    refine ⟨_, step_transport htransport, ?_⟩
    simp [transportAnswer_stat, transportAnswer_frame]

end

section
/-!
PROOF. O48, O58, O11, O43, O46 and O49: the platform's reset, the late answers it leaves behind, and the host's duty.
-/

namespace Sys2Proof.Machine

open Sys2Proof.Claims

/-- Where the platform asserts reset, the step is the reset (R190, R198). -/
theorem step_reset {s : State} (h : chooseTurn s = some .reset) : step s = .next (platformReset (tick s)) := by
  simp [step, h]

/-- Where the transport answers an abandoned request, the step is that late answer (R190, R198). -/
theorem step_late {s : State} {k : Nat} (h : chooseTurn s = some (.late k)) :
    step s = .next (lateAnswer k (tick s)) := by
  simp [step, h]

/-- Where no agent has a step, there is none (R197). -/
theorem step_none {s : State} (h : chooseTurn s = none) : step s = .fault .noStep := by
  simp [step, h]

/-- Where the host writes CMD, the step is the written command (R24, R198). -/
theorem step_hostWrites {s : State} {w : Word} (h : hostWrites s w) : step s = exec (decode w) (advance (tick s)) := by
  obtain ⟨hc, htodo⟩ := h
  rw [step_host hc, hostStep_write (by simpa using htodo), hostWrite, if_pos rfl]

/-- A late answer to a waiting request settles it and takes it off the waiting ones (R190). -/
theorem lateAnswer_waiting {s : State} {k : Nat} (h : k < s.abandoned.length) :
    lateAnswer k s = { settle s.abandoned[k] s with abandoned := s.abandoned.eraseIdx k } := by
  rw [lateAnswer, List.getElem?_eq_getElem h]

/-- Once the host has ended and no request is outstanding or abandoned, no agent moves by default (R197). -/
theorem defaultTurn_ended {s : State} (hf : s.final = true) (ha : s.abandoned = []) : defaultTurn s = none := by
  obtain ⟨htodo, hidle⟩ : s.todo = [] ∧ s.stat.active = false := by simpa [State.final] using hf
  simp [defaultTurn, htodo, hidle, ha]

/-- A host that keeps its duty and writes CMD next finds no transaction in flight (R200). -/
theorem idle_of_waitsBeforeCommand {s : State} {w : Word} (hwait : waitsBeforeCommand s = true)
    (h : s.todo.head? = some (.write 0#3 w)) : s.stat.active = false := by
  obtain ⟨ops, htodo⟩ := List.head?_eq_some_iff.1 h
  simpa [waitsBeforeCommand, htodo] using hwait

/-- The transaction commands are the ones that run the common sequence of R100 (R17). -/
theorem exec_of_isTransaction {i : Instr} (h : isTransaction i = true) : ∃ l, exec i = transact l := by
  cases i with
  | rd | wr | ident | wake | setacc2g | setgyr250 => exact ⟨_, rfl⟩
  | reserved0 | reserved7 | asm | cvta | cvtg | cvtt | asmi | cvtai | cvtgi | cvtti => cases h

end Sys2Proof.Machine

open Sys2Proof.Machine

/-- Settles O48: STAT, BUF and RES are those of the state after reset, and the request in flight is the one of the state before
the step. -/
theorem platformResetAbandonsTheTransaction : Obligations.PlatformResetAbandonsTheTransaction := by
  intro s hc
  obtain ⟨hstat, hbuf, hres, -, -⟩ := resetLeavesStatusClear
  refine ⟨_, step_reset hc, hstat, hbuf, hres, ?_⟩
  cases ha : s.stat.active <;> simp [ha]

/-- Settles O58: the duty makes a CMD write an accepted one, which clears REJ; no other step sets it. -/
theorem waitingHostIsNeverRejected : Obligations.WaitingHostIsNeverRejected := by
  intro s t hwait hrej h
  have hrej' : (tick s).stat.rej = false := by simpa using hrej
  rcases step_cases h with ⟨-, hh⟩ | ⟨-, rfl⟩ | ⟨k, -, rfl⟩ | ⟨-, rfl⟩
  · rcases hostStep_command_or_keeps hh with ⟨w, hw, hx⟩ | ⟨hstat, -⟩
    · have hidle : s.stat.active = false := idle_of_waitsBeforeCommand hwait (by simpa using hw)
      exact commandWhileActiveIsIgnored.2 _ _ _ (by simpa using hidle) hx
    · rw [hstat, hrej']
  · rw [transportAnswer_stat, hrej']
  · rw [(lateAnswer_stat_res k (tick s)).1, hrej']
  · rfl

/-- Settles O11: the check for a transport stops every transaction command, whatever its length. -/
theorem unboundTransportFailsEveryTransaction : Obligations.UnboundTransportFailsEveryTransaction := by
  intro i s hi ha hb
  obtain ⟨l, he⟩ := exec_of_isTransaction hi
  rw [he]
  exact transact_stopped ha (by simp [hb])

/-- Settles O43: using up the scheduling choice leaves the host's operations and its position as they are. -/
theorem stepRunsTheDecodedCommand : Obligations.StepRunsTheDecodedCommand := by
  intro s w h
  rw [step_hostWrites h, advance, tick_todo, tick_pos]

/-- Settles O46: with no outside choice left, who moves is the default, and it has nobody to name. -/
theorem endedRunHasNoStep : Obligations.EndedRunHasNoStep := by
  intro s hf ha hturns
  have hc : chooseTurn s = none := by rw [chooseTurn, hturns, defaultTurn_ended hf ha]
  exact step_none hc

/-- Settles O49: a late answer reaches the sensor and the record of answers alone. -/
theorem lateAnswerIsDiscarded : Obligations.LateAnswerIsDiscarded := by
  intro s k hc hk
  refine ⟨_, step_late hc, ?_⟩
  rw [lateAnswer_waiting (by simpa using hk)]
  simp

end
